-- ==== Sys2Proof/Word.lean ====
section
/-! DEFINITION. The word types of the block (spec/00_scope.md R6, R11): bytes of a frame, 16-bit
words, 32-bit parameter values and result codes, ticks. -/

namespace Sys2Proof

/-- `u8`: one byte of a frame (R11). -/
abbrev Byte := BitVec 8

/-- `u16`: the word size of the block (R6). -/
abbrev Word := BitVec 16

/-- `u32`: a parameter value, "split into two words" (R6). -/
abbrev DWord := BitVec 32

/-- `i32`: a result code, two's complement 32 bits (R44). -/
abbrev Code := BitVec 32

/-- A timestamp or a duration: an unbounded natural number of ticks (R36). -/
abbrev Tick := Nat

/-- The four PKW words of a telegram, in the order of the wire (R84). -/
structure Pkw where
  pke : Word
  ind : Word
  vhi : Word
  vlo : Word
  deriving DecidableEq, Repr

/-- The two PZD words of a telegram, in the order of the wire (R90). -/
structure Pzd where
  w0 : Word
  w1 : Word
  deriving DecidableEq, Repr

end Sys2Proof
end

