-- ==== Sys2Proof/Config.lean ====
section
/-! DEFINITION. What is fixed for one block: the constants the source fixes (R6, R7), the named
parameters of R8 and R9 as ONE record that the state carries and no step writes, their constraints
(R10), and the values nothing determines, as opaque constants (R11 `draw`; log 2 to log 6). -/

namespace Sys2Proof

/-- `STX = 0x02` (R6, R81). -/
def stx : Byte := 0x02#8

/-- `FRAME_LEN = 16` (R7). -/
def frameLen : Nat := 16

/-- The named parameters of R8 and R9. A claim about every state is a claim about every valuation.

`charTimes` and `errcodes` hold the two parameter functions as plain data: the arguments at which the
function departs from the spec's default, with the value there. Both functions have a finite domain,
so every function R10 admits is such a table (log 4). -/
structure Config where
  /-- `MAX_SLAVES` (R8). -/
  maxSlaves       : Nat
  /-- `LGE`, the constant length byte (R82). -/
  lge             : Byte
  /-- `AK_CHW_PWE`, task "change word parameter" (R86). -/
  akChwPwe        : BitVec 4
  /-- `AK_CHD_PWE`, task "change double-word parameter" (R86). -/
  akChdPwe        : BitVec 4
  /-- `AK_NO_RESP` (R87). -/
  akNoResp        : BitVec 4
  /-- `AK_CANT_EXECUTE` (R87). -/
  akCantExecute   : BitVec 4
  /-- `AK_NO_RIGHTS` (R87). -/
  akNoRights      : BitVec 4
  /-- `TICKS_PER_SECOND` (R9). -/
  ticksPerSecond  : Nat
  /-- `char_time(baud)` where it departs from the default. -/
  charTimes       : List (DWord × Tick)
  /-- `START_DELAY_CHARS` (R9). -/
  startDelayChars : Nat
  /-- `MAX_RESP_DELAY` in ticks (R9). -/
  maxRespDelay    : Tick
  /-- `MASTER_MARGIN` in ticks (R9). -/
  masterMargin    : Tick
  /-- `K_DE` (R9, R177), a natural number: DESIGN CHOICE, the spec gives the factor no type (log 24). -/
  kDe             : Nat
  /-- `DE_ASSERT_LEVEL`, the electrical level of "asserted" (R37). -/
  deAssertLevel   : Bool
  /-- `RC_COMM_FAIL`: no default, no constraint (R181). -/
  rcCommFail      : Code
  /-- `RC_CFG_TOO_MANY`: no default, nonzero (R211). -/
  rcCfgTooMany    : Code
  /-- `RC_CFG_NULL_LIST`: no default, nonzero (R210). -/
  rcCfgNullList   : Code
  /-- `RC_CFG_EMPTY`: no default, nonzero (R212). -/
  rcCfgEmpty      : Code
  /-- `errcode(vhi, vlo)`, keyed by `vhi ++ vlo`, where it departs from the default. -/
  errcodes        : List (DWord × Word)
  /-- `CHECK_LGE` (R82, R112). -/
  checkLge        : Bool
  deriving DecidableEq, Repr

/-- The open result code `RC_COMM_FAIL` of the block that leaves reset: nothing determines it (D17, log 3). -/
opaque Config.openCommFail : Code
/-- The open result code `RC_CFG_TOO_MANY` (D14, log 3). -/
opaque Config.openTooMany : Code
/-- The open result code `RC_CFG_NULL_LIST` (D14, log 3). -/
opaque Config.openNullList : Code
/-- The open result code `RC_CFG_EMPTY` (D14, log 3). -/
opaque Config.openEmpty : Code

/-- The answer of the `k`-th drawn `Now()` (R12, R59, log 5). -/
opaque Config.freeNow : Nat → Tick
/-- The bytes of the `k`-th drawn `RxRead`, before the cut at `FRAME_LEN` (R12, R58, log 5). -/
opaque Config.freeRx : Nat → List Byte
/-- The `k`-th drawn `u16` of a response (R155, log 6). -/
opaque Config.freeValue : Nat → Word
/-- The `k`-th drawn `i32` of a response (R203, log 6). -/
opaque Config.freeCode : Nat → Code

/-- `BCC` over more bytes than its buffer holds, of which R110 gives the missing ones no value (log 25). -/
opaque Config.freeBcc : List Byte → Nat → Byte

end Sys2Proof
end

