-- ==== Sys2Proof/Machine/Params.lean ====
section
/-! DEFINITION. The named parameters at work: the default valuation (R9), the constraints (R8, R10),
the two parameter functions, the derived amounts of ticks (R172, R175, R177), and the result codes the
source fixes (R6). -/

namespace Sys2Proof

/-- An open code that must be nonzero (D14): zero is the one value it cannot have. -/
def Config.nonzero (c : Code) : Code := if c = 0#32 then 1#32 else c

/-- The spec's default of every parameter (R9), with `MAX_SLAVES = 2` (R8). The four open result codes
have no default: each is whatever its opaque constant is (log 2, log 3). -/
def Config.default : Config where
  maxSlaves := 2
  lge := 0x0E#8
  akChwPwe := 2#4
  akChdPwe := 3#4
  akNoResp := 0#4
  akCantExecute := 7#4
  akNoRights := 8#4
  ticksPerSecond := 1000000
  charTimes := []
  startDelayChars := 2
  maxRespDelay := 20000
  masterMargin := 20000
  kDe := 1
  deAssertLevel := true
  rcCommFail := Config.openCommFail
  rcCfgTooMany := Config.nonzero Config.openTooMany
  rcCfgNullList := Config.nonzero Config.openNullList
  rcCfgEmpty := Config.nonzero Config.openEmpty
  errcodes := []
  checkLge := false

/-- `char_time(baud)`: the default `ceil(11 * TICKS_PER_SECOND / baud)` by the ceiling division of
R13 (7), unless the valuation says otherwise at this rate (R9, R172). -/
def Config.charTime (c : Config) (baud : DWord) : Tick :=
  (c.charTimes.lookup baud).getD ((11 * c.ticksPerSecond + baud.toNat - 1) / baud.toNat)

/-- `errcode(vhi, vlo)`: the default `vlo`, unless the valuation says otherwise here (R135). -/
def Config.errcode (c : Config) (vhi vlo : Word) : Word :=
  (c.errcodes.lookup (vhi ++ vlo)).getD vlo

/-- `ANOMALY_BOUND = 10` seconds, in ticks (R6). -/
def Config.anomalyBound (c : Config) : Tick := 10 * c.ticksPerSecond

/-- The minimum period (R172). -/
def Config.periodOf (c : Config) (tChar : Tick) : Tick :=
  2 * frameLen * tChar + c.startDelayChars * tChar + c.maxRespDelay + c.masterMargin

/-- `T_DE_HOLD`, the driver-enable hold delay (R177). -/
def Config.deHold (c : Config) (tChar deMargin : Tick) : Tick :=
  c.kDe * c.startDelayChars * tChar + deMargin

/-- The constraints on the parameters (R8, R10, D14). -/
abbrev Config.Valid (c : Config) : Prop :=
  1 ≤ c.maxSlaves ∧ c.maxSlaves ≤ 15
  ∧ c.akNoResp ≠ c.akNoRights ∧ c.akNoResp ≠ c.akCantExecute ∧ c.akNoRights ≠ c.akCantExecute
  ∧ c.akChwPwe ≠ c.akChdPwe ∧ c.akChwPwe ≠ 0#4 ∧ c.akChdPwe ≠ 0#4
  ∧ c.akChwPwe ≠ c.akNoResp ∧ c.akChwPwe ≠ c.akNoRights ∧ c.akChwPwe ≠ c.akCantExecute
  ∧ c.rcCfgTooMany ≠ 0#32 ∧ c.rcCfgNullList ≠ 0#32 ∧ c.rcCfgEmpty ≠ 0#32
  ∧ c.errcode 0#16 0#16 = 0#16 ∧ c.errcode 0#16 42#16 = 42#16

/-- `RC_OK = 0` (R6). -/
def rcOk : Code := 0#32
/-- `RC_NO_RESPONSE = -1` (R6, R13 (8)). -/
def rcNoResponse : Code := 0xFFFFFFFF#32
/-- `RC_ACCESS_DENIED = -2`. -/
def rcAccessDenied : Code := 0xFFFFFFFE#32
/-- `RC_ILLEGAL_PARAM = -3`. -/
def rcIllegalParam : Code := 0xFFFFFFFD#32

end Sys2Proof
end

