-- ==== Sys2Proof/Syntax.lean ====
section
/-! DEFINITION. The operation set (spec/00_scope.md R3), one constructor for each row of
spec/opcode_table.json, and the words in which an operation reaches the sequencer.
Host commands carry the CMD fields they use (R92, R93), micro-operations their operands. -/

namespace Sys2Proof

/-- One operation of the block, one constructor per row of spec/opcode_table.json. -/
inductive Instr where
  /-- `CONFIGURE`: `n = idx`, `margin = a16`, `baud = v32` (R170). -/
  | configure (n : BitVec 4) (margin : Word) (baud : DWord)
  /-- `SEND` (R174). -/
  | send
  /-- `RECEIVE` (R179). -/
  | receive
  /-- `SETPARAM_W`: `w = v32[15:0]`, `v32[31:16]` ignored (R200, R97). -/
  | setparamW (idx : BitVec 4) (param : Word) (w : Word)
  /-- `SETPARAM_D` (R201). -/
  | setparamD (idx : BitVec 4) (param : Word) (v : DWord)
  /-- `SETPARAM_F`: `f` is the IEEE-754 single bit pattern (R202, R98). -/
  | setparamF (idx : BitVec 4) (param : Word) (f : DWord)
  /-- `SET_SETPOINT` (R150). -/
  | setSetpoint (idx : BitVec 4) (setpoint : Word)
  /-- `SET_CTL` (R151). -/
  | setCtl (idx : BitVec 4) (mask : Word)
  /-- `CLR_CTL` (R152). -/
  | clrCtl (idx : BitVec 4) (mask : Word)
  /-- `GET_ACTUAL` (R153). -/
  | getActual (idx : BitVec 4)
  /-- `CHK_STATUS` (R154). -/
  | chkStatus (idx : BitVec 4) (mask : Word)
  /-- CMD `op = 0x0`, illegal; `rest` is bits 59:0, not examined (R99). -/
  | illegalOp0 (rest : BitVec 60)
  /-- CMD `op = 0xC`, illegal; `rest` is bits 59:0, not examined (R99). -/
  | illegalOpC (rest : BitVec 60)
  /-- CMD `op = 0xD`, illegal; `rest` is bits 59:0, not examined (R99). -/
  | illegalOpD (rest : BitVec 60)
  /-- CMD `op = 0xE`, illegal; `rest` is bits 59:0, not examined (R99). -/
  | illegalOpE (rest : BitVec 60)
  /-- CMD `op = 0xF`, illegal; `rest` is bits 59:0, not examined (R99). -/
  | illegalOpF (rest : BitVec 60)
  /-- `ENCODE(address, pkw, pzd)` (R111). -/
  | encode (address : Byte) (pkw : Pkw) (pzd : Pzd)
  /-- `DECODE(bytes)`, a byte sequence of any length (R112). -/
  | decode (bytes : List Byte)
  /-- `BCC(buf, len)` (R110). -/
  | bcc (buf : List Byte) (len : Nat)
  /-- `NO_TASK`: the idle request, all four PKW words zero (R86, R176). -/
  | noTask
  /-- `REQ_W(i, param, w)` (R130). -/
  | reqW (idx : BitVec 4) (param : Word) (w : Word)
  /-- `REQ_D(i, param, v)` (R131). -/
  | reqD (idx : BitVec 4) (param : Word) (v : DWord)
  /-- `REQ_F(i, param, f)` (R132). -/
  | reqF (idx : BitVec 4) (param : Word) (f : DWord)
  /-- `RESOLVE` of a response whose ack nibble is `0x0`, row RESOLVE.NO_RESP; `low` is `pke_r[11:0]` (R134). -/
  | resolveNoResp (idx : BitVec 4) (low : BitVec 12) (vhi vlo : Word)
  /-- `RESOLVE` of a response whose ack nibble is `0x1`, row RESOLVE.OTHER_1; `low` is `pke_r[11:0]` (R134). -/
  | resolveOther1 (idx : BitVec 4) (low : BitVec 12) (vhi vlo : Word)
  /-- `RESOLVE` of a response whose ack nibble is `0x2`, row RESOLVE.OTHER_2; `low` is `pke_r[11:0]` (R134). -/
  | resolveOther2 (idx : BitVec 4) (low : BitVec 12) (vhi vlo : Word)
  /-- `RESOLVE` of a response whose ack nibble is `0x3`, row RESOLVE.OTHER_3; `low` is `pke_r[11:0]` (R134). -/
  | resolveOther3 (idx : BitVec 4) (low : BitVec 12) (vhi vlo : Word)
  /-- `RESOLVE` of a response whose ack nibble is `0x4`, row RESOLVE.OTHER_4; `low` is `pke_r[11:0]` (R134). -/
  | resolveOther4 (idx : BitVec 4) (low : BitVec 12) (vhi vlo : Word)
  /-- `RESOLVE` of a response whose ack nibble is `0x5`, row RESOLVE.OTHER_5; `low` is `pke_r[11:0]` (R134). -/
  | resolveOther5 (idx : BitVec 4) (low : BitVec 12) (vhi vlo : Word)
  /-- `RESOLVE` of a response whose ack nibble is `0x6`, row RESOLVE.OTHER_6; `low` is `pke_r[11:0]` (R134). -/
  | resolveOther6 (idx : BitVec 4) (low : BitVec 12) (vhi vlo : Word)
  /-- `RESOLVE` of a response whose ack nibble is `0x7`, row RESOLVE.CANT_EXECUTE; `low` is `pke_r[11:0]` (R134). -/
  | resolveCantExecute (idx : BitVec 4) (low : BitVec 12) (vhi vlo : Word)
  /-- `RESOLVE` of a response whose ack nibble is `0x8`, row RESOLVE.NO_RIGHTS; `low` is `pke_r[11:0]` (R134). -/
  | resolveNoRights (idx : BitVec 4) (low : BitVec 12) (vhi vlo : Word)
  /-- `RESOLVE` of a response whose ack nibble is `0x9`, row RESOLVE.OTHER_9; `low` is `pke_r[11:0]` (R134). -/
  | resolveOther9 (idx : BitVec 4) (low : BitVec 12) (vhi vlo : Word)
  /-- `RESOLVE` of a response whose ack nibble is `0xA`, row RESOLVE.OTHER_A; `low` is `pke_r[11:0]` (R134). -/
  | resolveOtherA (idx : BitVec 4) (low : BitVec 12) (vhi vlo : Word)
  /-- `RESOLVE` of a response whose ack nibble is `0xB`, row RESOLVE.OTHER_B; `low` is `pke_r[11:0]` (R134). -/
  | resolveOtherB (idx : BitVec 4) (low : BitVec 12) (vhi vlo : Word)
  /-- `RESOLVE` of a response whose ack nibble is `0xC`, row RESOLVE.OTHER_C; `low` is `pke_r[11:0]` (R134). -/
  | resolveOtherC (idx : BitVec 4) (low : BitVec 12) (vhi vlo : Word)
  /-- `RESOLVE` of a response whose ack nibble is `0xD`, row RESOLVE.OTHER_D; `low` is `pke_r[11:0]` (R134). -/
  | resolveOtherD (idx : BitVec 4) (low : BitVec 12) (vhi vlo : Word)
  /-- `RESOLVE` of a response whose ack nibble is `0xE`, row RESOLVE.OTHER_E; `low` is `pke_r[11:0]` (R134). -/
  | resolveOtherE (idx : BitVec 4) (low : BitVec 12) (vhi vlo : Word)
  /-- `RESOLVE` of a response whose ack nibble is `0xF`, row RESOLVE.OTHER_F; `low` is `pke_r[11:0]` (R134). -/
  | resolveOtherF (idx : BitVec 4) (low : BitVec 12) (vhi vlo : Word)
  deriving DecidableEq, Repr

/-- A word at the sequencer's port, in one of the three encodings of spec/30_encoding.md.

`cmd` is the host's command word (R92). `frame` and `pkw` issue a micro-operation by itself, which the
host cannot do (R3): DESIGN CHOICE of the model, log 10. `sel` names the micro-operation where the
pattern alone does not; 0 leaves it to the pattern. -/
inductive PortWord where
  /-- A 64-bit CMD word (R92). -/
  | cmd (w : BitVec 64)
  /-- A 16-byte FRAME, offset 0 first (R80), with a selector: 1 `ENCODE`, 2 `DECODE`, 3 `BCC`. -/
  | frame (bytes : List Byte) (sel : BitVec 2)
  /-- The four PKW words of a request or a response (R84), the slave index it is for, and a selector:
  1 `RESOLVE`, 2 `REQ_F`. -/
  | pkw (words : Pkw) (idx : Word) (sel : Word)
  deriving DecidableEq, Repr

end Sys2Proof
end

