-- ==== Sys2Proof/Machine/State.lean ====
section
/-! DEFINITION. The state of the block as plain data (spec/10_state.md), its inputs and outputs
(spec/00_scope.md R12), the reasons a step stops, and reset (R43, R240). -/

namespace Sys2Proof.Machine

/-- One slave record `S[i]`: these fields and no others (R20). -/
structure Slave where
  /-- Parameter Channel state: `Pending` or `Idle` (R22). -/
  pending  : Bool
  /-- Request word 0, task code and parameter number (R21). -/
  pke      : Word
  /-- Request word 1, reserved (R21). -/
  ind      : Word
  /-- Request word 2, value-high (R21). -/
  vhi      : Word
  /-- Request word 3, value-low (R21). -/
  vlo      : Word
  /-- Control word, PZD word 0 of every telegram to the slave (R23). -/
  ctl      : Word
  /-- Main setpoint, PZD word 1 of every telegram to the slave (R24). -/
  setpoint : Word
  /-- Status word of the last accepted response (R25). -/
  status   : Word
  /-- Main actual value of the last accepted response (R26). -/
  actual   : Word
  deriving DecidableEq, Repr

/-- A slave record after reset: `Idle`, every word 0 (R43). -/
def Slave.reset : Slave := ⟨false, 0#16, 0#16, 0#16, 0#16, 0#16, 0#16, 0#16, 0#16⟩

/-- A frame buffer: the bytes that differ from what an unlisted offset reads as, offsets strictly
rising (R39, R50, log 8). -/
abbrev Memory := List Host.Cell

/-- Mode of the driver-enable output (R37). -/
inductive DeMode where
  | unconfigured
  | output
  deriving DecidableEq, Repr

/-- What the sequencer is doing (R35, R175, R204). Only `idle` accepts a command (R63). -/
inductive Seq where
  /-- Between commands. -/
  | idle
  /-- Inside a `SEND`, waiting in its gate. -/
  | sendGate
  /-- Inside a `SETPARAM_*` for this slave, waiting in the gate of its next scan. -/
  | paramGate (idx : BitVec 4)
  deriving DecidableEq, Repr

/-- The six kinds of interface event (R56). -/
inductive Event where
  /-- `TxWrite(bytes)` (R57). -/
  | txWrite (bytes : List Byte)
  /-- `RxRead(FRAME_LEN) -> (n, bytes)`, `n` the number of bytes (R58). -/
  | rxRead (bytes : List Byte)
  /-- `Now() -> t` (R59). -/
  | now (t : Tick)
  /-- `PinMode(output)` (R60). -/
  | pinMode
  /-- `DE(level)`, true for asserted (R60). -/
  | de (level : Bool)
  /-- `Delay(d)` (R61). -/
  | delay (d : Tick)
  deriving DecidableEq, Repr

/-- The response to a command (R94). -/
structure Response where
  code  : Code
  value : Word
  deriving DecidableEq, Repr

/-- What `DECODE` returns on success (R112). -/
structure Telegram where
  address : Byte
  pkw     : Pkw
  pzd     : Pzd
  deriving DecidableEq, Repr

/-- The result of `DECODE`: there is one error kind (R112, R113). -/
inductive DecodeResult where
  | ok (t : Telegram)
  | malformed
  deriving DecidableEq, Repr

/-- The outcome of an acknowledgment (R87, R134, R214 to R217). -/
inductive AckOutcome where
  | success
  | noResponse
  | accessDenied
  | illegalParameter
  | deviceError (c : Word)
  deriving DecidableEq, Repr

/-- The errors a command raises (R210 to R212). -/
inductive ConfigError where
  | nullList
  | tooMany
  | empty
  deriving DecidableEq, Repr

/-- What one clock sample does to the gate (R175). -/
inductive GateCase where
  /-- Case (a): the wait ends normally. -/
  | passed
  /-- Case (b): the wait is abandoned. -/
  | abandoned
  /-- Case (c): the block samples again. -/
  | waiting
  deriving DecidableEq, Repr

/-- What a micro-operation issued by itself returned (log 15). -/
inductive MicroResult where
  | none
  | byte (b : Byte)
  | words (w : Pkw)
  | frame (bytes : List Byte)
  | decoded (r : DecodeResult)
  | code (c : Code)
  deriving DecidableEq, Repr

/-- One word at the port, with the side inputs `CONFIGURE` samples (R92, R95). -/
structure PortEntry where
  word        : PortWord
  listPresent : Bool
  addrs       : List (BitVec 5)
  deriving DecidableEq, Repr

/-- Why a step stops with a fault. -/
inductive Fault where
  /-- Raised by `SEND`, `RECEIVE` and `SETPARAM_*` when the cursor names no configured slave, so that
  `addr[cursor]` is "outside the table" (R226). No state a run reaches has such a cursor (R42). Safe. -/
  | cursorOutsideTable
  deriving DecidableEq, Repr

/-- Why an operation has no meaning. A refused command does nothing (R226). -/
inductive Refusal where
  /-- An instruction without a meaning in this model. Safe. -/
  | notModelled (mnemonic : String)
  /-- Raised by the five illegal opcodes (R99). Safe. -/
  | illegalOp
  /-- Raised by the fetch of a CMD word with `rsv != 0` (R99). Safe. -/
  | reservedBits
  /-- Raised by `CONFIGURE` when the block is configured (R171). Safe. -/
  | reconfigure
  /-- Raised by `CONFIGURE` with baud rate 0 (R172). Safe. -/
  | baudZero
  /-- Raised by `SEND`, `RECEIVE` and in-range `SETPARAM_*` in the wrong phase (R226). Safe. -/
  | phase
  /-- Raised by the fetch of a micro-operation word that names no micro-operation; no CMD word raises
  it (log 10). Safe. -/
  | noMicroOp
  deriving DecidableEq, Repr

/-- The block. Fields from `cfg` to `seq` are the block's own; the rest are its inputs and outputs and
the model's two own fields (INVENTORY.md). -/
structure State where
  /-- The valuation of the named parameters; no step writes it (R9). -/
  cfg            : Config
  /-- `S[0] .. S[MAX_SLAVES-1]` (R20). -/
  slaves         : List Slave
  /-- `configured` (R29). -/
  configured     : Bool
  /-- `count` (R30). -/
  count          : Nat
  /-- `addr[0 .. MAX_SLAVES-1]` (R31). -/
  addr           : List (BitVec 5)
  /-- `baud` (R32). -/
  baud           : DWord
  /-- `t_char` (R32). -/
  tChar          : Tick
  /-- `period` (R32). -/
  period         : Tick
  /-- `de_margin` (R32). -/
  deMargin       : Tick
  /-- `cursor` (R33). -/
  cursor         : Nat
  /-- `window_open` (R34). -/
  windowOpen     : Bool
  /-- `next_send` (R36). -/
  nextSend       : Tick
  /-- `de_mode` (R37). -/
  deMode         : DeMode
  /-- `de`, true for asserted (R37). -/
  de             : Bool
  /-- `gate_abandoned`, sticky (R38). -/
  gateAbandoned  : Bool
  /-- `TXBUF` (R39). -/
  txbuf          : Memory
  /-- `RXBUF` (R39). -/
  rxbuf          : Memory
  /-- What the sequencer is doing (R35). -/
  seq            : Seq
  /-- The reset input (R43, R240). -/
  resetLine      : Bool
  /-- Commands issued and not yet accepted, oldest first (R63, log 9). -/
  port           : List PortEntry
  /-- `cfg_list_present` of the command being executed (R95). -/
  cfgListPresent : Bool
  /-- `cfg_addr[]` of the command being executed (R95). -/
  cfgAddr        : List (BitVec 5)
  /-- The answers the next `Now()` get, oldest first; past its end they are drawn (log 5). -/
  nowIn          : List Tick
  /-- The answers the next `RxRead` get, oldest first; past its end they are drawn (log 5). -/
  rxIn           : List (List Byte)
  /-- How many values have been drawn: the model's own (log 5, log 6). -/
  draws          : Nat
  /-- The interface trace, oldest first (R12). -/
  trace          : List Event
  /-- The responses delivered, oldest first (R12, R94). -/
  responses      : List Response
  /-- What the last micro-operation issued by itself returned: the model's own (log 15). -/
  mres           : MicroResult
  deriving DecidableEq, Repr

/-- The block under the valuation `c` right after reset (R43, R240; log 7 for what the spec leaves
unspecified). -/
def State.resetWith (c : Config) : State where
  cfg := c
  slaves := List.replicate c.maxSlaves Slave.reset
  configured := false
  count := 0
  addr := List.replicate c.maxSlaves 0#5
  baud := 0#32
  tChar := 0
  period := 0
  deMargin := 0
  cursor := 0
  windowOpen := false
  nextSend := 0
  deMode := .unconfigured
  de := false
  gateAbandoned := false
  txbuf := []
  rxbuf := []
  seq := .idle
  resetLine := false
  port := []
  cfgListPresent := false
  cfgAddr := []
  nowIn := []
  rxIn := []
  draws := 0
  trace := []
  responses := []
  mres := .none

/-- The block right after reset, under the default valuation (R9, R43; log 2). -/
def State.reset : State := State.resetWith Config.default

end Sys2Proof.Machine
end

