-- ==== Sys2Proof/Machine/Operands.lean ====
section
/-! DEFINITION. Every operand form and bit field of spec/30_encoding.md section 4 and
spec/00_scope.md R11: byte halves, masks, PKE assembly, value splitting, slave indices. -/

namespace Sys2Proof.Machine

/-- `hi8(w) = w[15:8]` (R11). -/
def hi8 (w : Word) : Byte := w.extractLsb' 8 8

/-- `lo8(w) = w[7:0]` (R11). -/
def lo8 (w : Word) : Byte := w.extractLsb' 0 8

/-- `be16(h, l) = h*256 + l` (R11, R51). -/
def be16 (h l : Byte) : Word := h ++ l

/-- `address & 0x1F` (R96). -/
def maskAddr (address : Byte) : Byte := address &&& 0x1F#8

/-- `param & 0x07FF` (R96). -/
def maskPnu (param : Word) : Word := param &&& 0x07FF#16

/-- `(AK << 12) | (param & 0x07FF)`, 16 bits (R96). -/
def pkeOf (ak : BitVec 4) (param : Word) : Word := ak.setWidth 16 <<< 12 ||| maskPnu param

/-- The task or ack code, `pke[15:12]` (R85). -/
def akOf (pke : Word) : BitVec 4 := pke.extractLsb' 12 4

/-- `v[31:16]` (R97). -/
def valueHigh (v : DWord) : Word := v.extractLsb' 16 16

/-- `v[15:0]` (R97). -/
def valueLow (v : DWord) : Word := v.extractLsb' 0 16

/-- A 5-bit table entry as the address operand of `ENCODE`, zero-extended (R177). -/
def busAddress (a : BitVec 5) : Byte := a.setWidth 8

/-- `S[i]` (R11). -/
def State.slave (s : State) (i : Nat) : Slave := s.slaves.getD i Slave.reset

/-- `addr[i]` (R31). -/
def State.addrAt (s : State) (i : Nat) : BitVec 5 := s.addr.getD i 0#5

/-- A command's slave index names a configured slave: `idx < count` (R155, R13 (9)). -/
def State.inRange (s : State) (idx : BitVec 4) : Bool := decide (idx.toNat < s.count)

/-- The `n` addresses `CONFIGURE` copies, `cfg_addr[0 .. n-1]` (R95, R170; log 18). -/
def State.cfgAddrs (s : State) (n : Nat) : List (BitVec 5) :=
  (List.range n).map fun k => s.cfgAddr.getD k 0#5

end Sys2Proof.Machine
end

