-- ==== Sys2Proof/Machine/Flags.lean ====
section
/-! DEFINITION. The flags of the block (R38): how each is computed. `pending` per slave (R22, R134),
`window_open` and `configured` in the phase check (R226), `gate_abandoned` from the gate's case (R175),
and the two status tests that answer a command (R154, R87). -/

namespace Sys2Proof.Machine

/-- The gate's case for one clock sample `t` (R175). -/
def gateCase (bound nextSend t : Tick) : GateCase :=
  if nextSend ≤ t then .passed
  else if bound ≤ nextSend - t then .abandoned
  else .waiting

/-- The phase in which a `SEND` may come: `Idle` (R35, R174). -/
def State.sendPhase (s : State) : Bool := s.configured && !s.windowOpen

/-- The phase in which a `RECEIVE` may come: `ReceiveWindow` (R35, R179). -/
def State.receivePhase (s : State) : Bool := s.configured && s.windowOpen

/-- The flag test of `CHK_STATUS`: any bit of the mask (R154, D21). -/
def statusFlag (status mask : Word) : Word := if status &&& mask ≠ 0#16 then 1#16 else 0#16

/-- What an acknowledgment means: three named codes, any other is success (R87, R134). -/
def ackOutcome (c : Config) (pke vhi vlo : Word) : AckOutcome :=
  if akOf pke = c.akNoResp then .noResponse
  else if akOf pke = c.akNoRights then .accessDenied
  else if akOf pke = c.akCantExecute then
    if c.errcode vhi vlo = 0#16 then .illegalParameter else .deviceError (c.errcode vhi vlo)
  else .success

/-- The result code of an outcome (R87); a device code is zero-extended (R217). -/
def AckOutcome.resultCode : AckOutcome → Code
  | .success => rcOk
  | .noResponse => rcNoResponse
  | .accessDenied => rcAccessDenied
  | .illegalParameter => rcIllegalParam
  | .deviceError c => c.setWidth 32

/-- The result code of a raised configuration error (R210 to R212). -/
def ConfigError.resultCode (c : Config) : ConfigError → Code
  | .nullList => c.rcCfgNullList
  | .tooMany => c.rcCfgTooMany
  | .empty => c.rcCfgEmpty

/-- The electrical level at the driver-enable pin: undriven until configured, then `DE_ASSERT_LEVEL`
when asserted and its opposite when not (R37). -/
def State.pinLevel (s : State) : Option Bool :=
  match s.deMode with
  | .unconfigured => none
  | .output => some (if s.de then s.cfg.deAssertLevel else !s.cfg.deAssertLevel)

end Sys2Proof.Machine
end

