-- ==== Sys2Proof/Machine/Ops.lean ====
section
/-! DEFINITION. The shared operations: the frame buffers (R50, R51), the interface events (R56 to R61),
delivering a response and raising an error (R94, R222), reading and writing a slave record (R11), the
draws (R12), and the reset input (R240). -/

namespace Sys2Proof.Machine

/-! ## Frame buffers -/

/-- `MemRead(buf, a, 1)`; an unlisted offset reads 0 (log 8). -/
def Memory.read (m : Memory) (a : Nat) : Byte := (m.lookup a).getD 0#8

/-- `MemWrite(buf, a, 1, b)`, keeping offsets rising and zero bytes unlisted. -/
def Memory.write : Memory → Nat → Byte → Memory
  | [], a, b => if b = 0#8 then [] else [(a, b)]
  | (a', b') :: r, a, b =>
    if a < a' then (if b = 0#8 then (a', b') :: r else (a, b) :: (a', b') :: r)
    else if a = a' then (if b = 0#8 then r else (a, b) :: r)
    else (a', b') :: Memory.write r a b

/-- `MemRead(buf, a, 2)`, big-endian (R51). -/
def Memory.read16 (m : Memory) (a : Nat) : Word := be16 (Memory.read m a) (Memory.read m (a + 1))

/-- `MemWrite(buf, a, 2, w)`, big-endian (R51). -/
def Memory.write16 (m : Memory) (a : Nat) (w : Word) : Memory :=
  Memory.write (Memory.write m a (hi8 w)) (a + 1) (lo8 w)

/-- Write a byte sequence at consecutive offsets. -/
def Memory.writeAll (m : Memory) (a : Nat) : List Byte → Memory
  | [] => m
  | b :: bs => Memory.writeAll (Memory.write m a b) (a + 1) bs

/-- `buf[0..n)` (R11). -/
def Memory.bytes (m : Memory) (n : Nat) : List Byte := (List.range n).map (Memory.read m)

/-- Offsets strictly rising from `lo`, below `hi`, no listed byte zero. -/
def Memory.sortedFrom (lo hi : Nat) : Memory → Bool
  | [] => true
  | (a, b) :: r => decide (lo ≤ a) && decide (a < hi) && b != 0#8 && Memory.sortedFrom (a + 1) hi r

/-- The canonical form of a frame buffer: offsets 0 to 15, strictly rising, no zero listed. -/
def Memory.wf (m : Memory) : Bool := Memory.sortedFrom 0 frameLen m

/-! ## Interface events -/

/-- Append one event to the interface trace (R56). -/
def State.emit (s : State) (e : Event) : State := { s with trace := s.trace ++ [e] }

/-- What the next `Now()` answers: the queued answer, or a draw (R59, log 5). -/
def State.nowValue (s : State) : Tick := s.nowIn.headD (Config.freeNow s.draws)

/-- `Now()`: sample the clock (R59). -/
def State.afterNow (s : State) : State :=
  { s with
    nowIn := s.nowIn.tail
    draws := if s.nowIn.isEmpty then s.draws + 1 else s.draws
    trace := s.trace ++ [.now s.nowValue] }

/-- What the next `RxRead` answers: the queued answer or a draw, at most `FRAME_LEN` bytes
(R58, log 5, log 16). -/
def State.rxBytes (s : State) : List Byte := (s.rxIn.headD (Config.freeRx s.draws)).take frameLen

/-- `RxRead(FRAME_LEN)`: consume the answer into `RXBUF[0..n)` (R39, R58). -/
def State.afterRx (s : State) : State :=
  { s with
    rxIn := s.rxIn.tail
    draws := if s.rxIn.isEmpty then s.draws + 1 else s.draws
    rxbuf := Memory.writeAll s.rxbuf 0 s.rxBytes
    trace := s.trace ++ [.rxRead s.rxBytes] }

/-- `TxWrite(TXBUF)`: hand all 16 bytes to the transport (R55, R57). -/
def State.txWrite (s : State) : State := s.emit (.txWrite (Memory.bytes s.txbuf frameLen))

/-- `DE(level)` (R60). -/
def State.driveDe (s : State) (level : Bool) : State :=
  { s with de := level, trace := s.trace ++ [.de level] }

/-- `PinMode(output)` (R60). -/
def State.pinModeOutput (s : State) : State :=
  { s with deMode := .output, trace := s.trace ++ [.pinMode] }

/-- `Delay(d)`: an event and nothing else (R61, R260). -/
def State.delay (s : State) (d : Tick) : State := s.emit (.delay d)

/-! ## Responses, errors, draws -/

/-- Deliver the response of a command (R94). -/
def State.respond (s : State) (code : Code) (value : Word) : State :=
  { s with responses := s.responses ++ [⟨code, value⟩] }

/-- `raise`: the command ends with the error's result code and nothing else; there is no trap entry
(R11, R222). -/
def State.raiseError (s : State) (e : ConfigError) : State :=
  s.respond (e.resultCode s.cfg) 0#16

/-- Count one drawn response value (log 6). -/
def State.afterDraw (s : State) : State := { s with draws := s.draws + 1 }

/-- Leave what a micro-operation issued by itself returned (log 15). -/
def State.leave (s : State) (r : MicroResult) : State := { s with mres := r }

/-- What the sequencer does next: wait in a gate, or accept the next command (R35, R175, R204). -/
def State.toSeq (s : State) (q : Seq) : State := { s with seq := q }

/-- A command that answers at once. -/
def done (s : State) : Host.Outcome State Fault Refusal := .next s

/-! ## Slave records -/

/-- Write fields of `S[i]` (R11). -/
def State.updateSlave (s : State) (i : Nat) (f : Slave → Slave) : State :=
  { s with slaves := s.slaves.modify i f }

/-- Write fields of `S[idx]` if `idx < count`, else nothing (R155). -/
def State.updateInRange (s : State) (idx : BitVec 4) (f : Slave → Slave) : State :=
  if s.inRange idx then s.updateSlave idx.toNat f else s

/-! ## Reset -/

/-- The reset input: every piece of the block's state at its reset value under the same valuation, and
a new run's empty observation; what the host and the environment still hold is theirs
(R12, R240; log 20). -/
def State.hardwareReset (s : State) : State :=
  { State.resetWith s.cfg with
    port := s.port
    cfgListPresent := s.cfgListPresent
    cfgAddr := s.cfgAddr
    nowIn := s.nowIn
    rxIn := s.rxIn
    draws := s.draws }

end Sys2Proof.Machine
end

