-- ==== Sys2Proof/Machine/Codec.lean ====
section
/-! DEFINITION. Telegram Codec (spec/40_codec.md): `BCC`, `ENCODE`, `DECODE`. -/

namespace Sys2Proof.Machine

/-- `BCC(buf, len)`: XOR of `buf[0] .. buf[len-1]` from 0 (R110). DESIGN CHOICE: past the end of `buf` the
result is a free value (log 25). -/
def bcc (buf : List Byte) (len : Nat) : Byte :=
  if len ≤ buf.length then (buf.take len).foldl (· ^^^ ·) 0x00#8 else Config.freeBcc buf len

/-- The stores of `ENCODE` before the BCC (R111). -/
def encodeBody (lge : Byte) (address : Byte) (k : Pkw) (z : Pzd) (b : Memory) : Memory :=
  let b := Memory.write b 0 stx
  let b := Memory.write b 1 lge
  let b := Memory.write b 2 (maskAddr address)
  let b := Memory.write16 b 3 k.pke
  let b := Memory.write16 b 5 k.ind
  let b := Memory.write16 b 7 k.vhi
  let b := Memory.write16 b 9 k.vlo
  let b := Memory.write16 b 11 z.w0
  Memory.write16 b 13 z.w1

/-- `ENCODE(address, pkw, pzd)` into the buffer `b` (R111). -/
def encodeInto (lge : Byte) (address : Byte) (k : Pkw) (z : Pzd) (b : Memory) : Memory :=
  let b := encodeBody lge address k z b
  Memory.write b 15 (bcc (Memory.bytes b 15) 15)

/-- The 16 bytes `ENCODE` returns (R111). -/
def encodeBytes (lge : Byte) (address : Byte) (k : Pkw) (z : Pzd) : List Byte :=
  Memory.bytes (encodeInto lge address k z []) frameLen

/-- `be16(bytes[k], bytes[k+1])` (R112). -/
def wordAt (bytes : List Byte) (k : Nat) : Word := be16 (bytes.getD k 0#8) (bytes.getD (k + 1) 0#8)

/-- The fields `DECODE` extracts from a frame that passes its checks (R112). -/
def extractTelegram (bytes : List Byte) : Telegram :=
  { address := maskAddr (bytes.getD 2 0#8)
    pkw := ⟨wordAt bytes 3, wordAt bytes 5, wordAt bytes 7, wordAt bytes 9⟩
    pzd := ⟨wordAt bytes 11, wordAt bytes 13⟩ }

/-- `DECODE(bytes)` (R112, R113). -/
def decodeBytes (c : Config) (bytes : List Byte) : DecodeResult :=
  if bytes.length ≠ frameLen then .malformed
  else if bytes.getD 0 0#8 ≠ stx then .malformed
  else if c.checkLge = true ∧ bytes.getD 1 0#8 ≠ c.lge then .malformed
  else if bcc bytes 15 ≠ bytes.getD 15 0#8 then .malformed
  else .ok (extractTelegram bytes)

/-- `ENCODE` issued by itself: it writes `TXBUF`, "the buffer" it is "given" (R111, log 10). -/
def execEncode (address : Byte) (k : Pkw) (z : Pzd) (s : State) : Host.Outcome State Fault Refusal :=
  done ({ s with txbuf := encodeInto s.cfg.lge address k z s.txbuf }.leave
    (.frame (encodeBytes s.cfg.lge address k z)))

/-- `DECODE` issued by itself (R112). -/
def execDecode (bytes : List Byte) (s : State) : Host.Outcome State Fault Refusal :=
  done (s.leave (.decoded (decodeBytes s.cfg bytes)))

/-- `BCC` issued by itself (R110). -/
def execBcc (buf : List Byte) (len : Nat) (s : State) : Host.Outcome State Fault Refusal :=
  done (s.leave (.byte (bcc buf len)))

end Sys2Proof.Machine
end

