-- ==== Sys2Proof/Machine/Pkw.lean ====
section
/-! DEFINITION. Parameter Channel (spec/41_pkw_channel.md): the idle request, the three request
micro-operations and `RESOLVE`. -/

namespace Sys2Proof.Machine

/-- The PKW of an `Idle` slave: "all-zero PKW words" (R84, R86, R176). -/
def noTaskWords : Pkw := ⟨0#16, 0#16, 0#16, 0#16⟩

/-- The PKW words sent to a slave: its request words if `Pending`, else `NO_TASK` (R176). -/
def Slave.pkw (r : Slave) : Pkw := if r.pending then ⟨r.pke, r.ind, r.vhi, r.vlo⟩ else noTaskWords

/-- A request call: all four request words are overwritten and the slave becomes `Pending` (R133). -/
def Slave.request (pke vhi vlo : Word) (r : Slave) : Slave :=
  { r with pke := pke, ind := 0x0000#16, vhi := vhi, vlo := vlo, pending := true }

/-- `REQ_W` on one record (R130). -/
def Slave.reqW (c : Config) (param w : Word) (r : Slave) : Slave :=
  r.request (pkeOf c.akChwPwe param) 0x0000#16 w

/-- `REQ_D` on one record (R131). -/
def Slave.reqD (c : Config) (param : Word) (v : DWord) (r : Slave) : Slave :=
  r.request (pkeOf c.akChdPwe param) (valueHigh v) (valueLow v)

/-- `REQ_F` on one record: it is `REQ_D` on the bit pattern (R132). -/
def Slave.reqF (c : Config) (param : Word) (f : DWord) (r : Slave) : Slave := r.reqD c param f

/-- The code `RESOLVE` returns (R134). -/
def resolveCode (c : Config) (pke vhi vlo : Word) : Code := (ackOutcome c pke vhi vlo).resultCode

/-- What `RESOLVE` writes: `pending <- 0`, the request words stay (R134, D26). -/
def Slave.resolve (r : Slave) : Slave := { r with pending := false }

/-- `RESOLVE` issued by itself: the record of a slave out of range does not change (R134, log 13). -/
def State.resolveAt (s : State) (idx : BitVec 4) (pke vhi vlo : Word) : State :=
  (s.updateInRange idx Slave.resolve).leave (.code (resolveCode s.cfg pke vhi vlo))

/-- `NO_TASK` issued by itself: the four zero words (R86). -/
def execNoTask (s : State) : Host.Outcome State Fault Refusal := done (s.leave (.words noTaskWords))

/-- `REQ_W` issued by itself (R130; out of range log 13). -/
def execReqW (idx : BitVec 4) (param w : Word) (s : State) : Host.Outcome State Fault Refusal :=
  done (s.updateInRange idx (Slave.reqW s.cfg param w))

/-- `REQ_D` issued by itself (R131; out of range log 13). -/
def execReqD (idx : BitVec 4) (param : Word) (v : DWord) (s : State) :
    Host.Outcome State Fault Refusal :=
  done (s.updateInRange idx (Slave.reqD s.cfg param v))

/-- `REQ_F` issued by itself (R132; out of range log 13). -/
def execReqF (idx : BitVec 4) (param : Word) (f : DWord) (s : State) :
    Host.Outcome State Fault Refusal :=
  done (s.updateInRange idx (Slave.reqF s.cfg param f))

/-- Row RESOLVE.NO_RESP: `RESOLVE` of a response with ack nibble `0x0` (R134). -/
def execResolveNoResp (idx : BitVec 4) (low : BitVec 12) (vhi vlo : Word) (s : State) :
    Host.Outcome State Fault Refusal :=
  done (s.resolveAt idx (0x0#4 ++ low) vhi vlo)

/-- Row RESOLVE.OTHER_1: `RESOLVE` of a response with ack nibble `0x1` (R134). -/
def execResolveOther1 (idx : BitVec 4) (low : BitVec 12) (vhi vlo : Word) (s : State) :
    Host.Outcome State Fault Refusal :=
  done (s.resolveAt idx (0x1#4 ++ low) vhi vlo)

/-- Row RESOLVE.OTHER_2: `RESOLVE` of a response with ack nibble `0x2` (R134). -/
def execResolveOther2 (idx : BitVec 4) (low : BitVec 12) (vhi vlo : Word) (s : State) :
    Host.Outcome State Fault Refusal :=
  done (s.resolveAt idx (0x2#4 ++ low) vhi vlo)

/-- Row RESOLVE.OTHER_3: `RESOLVE` of a response with ack nibble `0x3` (R134). -/
def execResolveOther3 (idx : BitVec 4) (low : BitVec 12) (vhi vlo : Word) (s : State) :
    Host.Outcome State Fault Refusal :=
  done (s.resolveAt idx (0x3#4 ++ low) vhi vlo)

/-- Row RESOLVE.OTHER_4: `RESOLVE` of a response with ack nibble `0x4` (R134). -/
def execResolveOther4 (idx : BitVec 4) (low : BitVec 12) (vhi vlo : Word) (s : State) :
    Host.Outcome State Fault Refusal :=
  done (s.resolveAt idx (0x4#4 ++ low) vhi vlo)

/-- Row RESOLVE.OTHER_5: `RESOLVE` of a response with ack nibble `0x5` (R134). -/
def execResolveOther5 (idx : BitVec 4) (low : BitVec 12) (vhi vlo : Word) (s : State) :
    Host.Outcome State Fault Refusal :=
  done (s.resolveAt idx (0x5#4 ++ low) vhi vlo)

/-- Row RESOLVE.OTHER_6: `RESOLVE` of a response with ack nibble `0x6` (R134). -/
def execResolveOther6 (idx : BitVec 4) (low : BitVec 12) (vhi vlo : Word) (s : State) :
    Host.Outcome State Fault Refusal :=
  done (s.resolveAt idx (0x6#4 ++ low) vhi vlo)

/-- Row RESOLVE.CANT_EXECUTE: `RESOLVE` of a response with ack nibble `0x7` (R134). -/
def execResolveCantExecute (idx : BitVec 4) (low : BitVec 12) (vhi vlo : Word) (s : State) :
    Host.Outcome State Fault Refusal :=
  done (s.resolveAt idx (0x7#4 ++ low) vhi vlo)

/-- Row RESOLVE.NO_RIGHTS: `RESOLVE` of a response with ack nibble `0x8` (R134). -/
def execResolveNoRights (idx : BitVec 4) (low : BitVec 12) (vhi vlo : Word) (s : State) :
    Host.Outcome State Fault Refusal :=
  done (s.resolveAt idx (0x8#4 ++ low) vhi vlo)

/-- Row RESOLVE.OTHER_9: `RESOLVE` of a response with ack nibble `0x9` (R134). -/
def execResolveOther9 (idx : BitVec 4) (low : BitVec 12) (vhi vlo : Word) (s : State) :
    Host.Outcome State Fault Refusal :=
  done (s.resolveAt idx (0x9#4 ++ low) vhi vlo)

/-- Row RESOLVE.OTHER_A: `RESOLVE` of a response with ack nibble `0xA` (R134). -/
def execResolveOtherA (idx : BitVec 4) (low : BitVec 12) (vhi vlo : Word) (s : State) :
    Host.Outcome State Fault Refusal :=
  done (s.resolveAt idx (0xA#4 ++ low) vhi vlo)

/-- Row RESOLVE.OTHER_B: `RESOLVE` of a response with ack nibble `0xB` (R134). -/
def execResolveOtherB (idx : BitVec 4) (low : BitVec 12) (vhi vlo : Word) (s : State) :
    Host.Outcome State Fault Refusal :=
  done (s.resolveAt idx (0xB#4 ++ low) vhi vlo)

/-- Row RESOLVE.OTHER_C: `RESOLVE` of a response with ack nibble `0xC` (R134). -/
def execResolveOtherC (idx : BitVec 4) (low : BitVec 12) (vhi vlo : Word) (s : State) :
    Host.Outcome State Fault Refusal :=
  done (s.resolveAt idx (0xC#4 ++ low) vhi vlo)

/-- Row RESOLVE.OTHER_D: `RESOLVE` of a response with ack nibble `0xD` (R134). -/
def execResolveOtherD (idx : BitVec 4) (low : BitVec 12) (vhi vlo : Word) (s : State) :
    Host.Outcome State Fault Refusal :=
  done (s.resolveAt idx (0xD#4 ++ low) vhi vlo)

/-- Row RESOLVE.OTHER_E: `RESOLVE` of a response with ack nibble `0xE` (R134). -/
def execResolveOtherE (idx : BitVec 4) (low : BitVec 12) (vhi vlo : Word) (s : State) :
    Host.Outcome State Fault Refusal :=
  done (s.resolveAt idx (0xE#4 ++ low) vhi vlo)

/-- Row RESOLVE.OTHER_F: `RESOLVE` of a response with ack nibble `0xF` (R134). -/
def execResolveOtherF (idx : BitVec 4) (low : BitVec 12) (vhi vlo : Word) (s : State) :
    Host.Outcome State Fault Refusal :=
  done (s.resolveAt idx (0xF#4 ++ low) vhi vlo)

end Sys2Proof.Machine
end

