-- ==== Sys2Proof/Machine/Scheduler.lean ====
section
/-! DEFINITION. Bus Scheduler (spec/43_scheduler.md): `CONFIGURE`, `SEND`, `RECEIVE`.
The gate of `SEND` takes one clock sample a step (log 1). -/

namespace Sys2Proof.Machine

/-! ## CONFIGURE -/

/-- The writes and events of a successful `CONFIGURE` (R170, R172, R173). -/
def State.configure (s : State) (n : BitVec 4) (margin : Word) (baud : DWord) : State :=
  let s := { s with
    count := n.toNat
    addr := s.cfgAddrs n.toNat ++ s.addr.drop n.toNat
    baud := baud
    tChar := s.cfg.charTime baud
    period := s.cfg.periodOf (s.cfg.charTime baud)
    deMargin := margin.toNat }
  let s := s.pinModeOutput.driveDe true
  { s with cursor := 0, windowOpen := false, nextSend := 0, configured := true }

/-- `CONFIGURE` (R170): refusals, then errors in the order of R221, then the effect. -/
def execConfigure (n : BitVec 4) (margin : Word) (baud : DWord) (s : State) :
    Host.Outcome State Fault Refusal :=
  if s.configured then .refused .reconfigure
  else if baud = 0#32 then .refused .baudZero
  else if s.cfgListPresent = false then done (s.raiseError .nullList)
  else if s.cfg.maxSlaves < n.toNat then done (s.raiseError .tooMany)
  else if n.toNat = 0 then done (s.raiseError .empty)
  else done ((s.configure n margin baud).respond rcOk 0#16)

/-! ## SEND -/

/-- The gate's case for the next clock sample (R175). -/
def State.gate (s : State) : GateCase := gateCase s.cfg.anomalyBound s.nextSend s.nowValue

/-- One clock sample of the gate: the sample is an event, an abandoned wait sets `gate_abandoned`
(R175, R218). -/
def State.afterGate (s : State) : State :=
  { s.afterNow with gateAbandoned := s.gateAbandoned || decide (s.gate = .abandoned) }

/-- "Advances the round-robin cursor to 0 if it has reached the slave count" (R176). -/
def State.wrapCursor (s : State) : State :=
  { s with cursor := if s.cursor = s.count then 0 else s.cursor }

/-- The PZD words sent to a slave (R176, R90). -/
def Slave.pzd (r : Slave) : Pzd := ⟨r.ctl, r.setpoint⟩

/-- Compose the telegram for the cursor's slave into `TXBUF` (R176, R111). -/
def State.compose (s : State) : State :=
  let r := s.slave s.cursor
  { s with txbuf := encodeInto s.cfg.lge (busAddress (s.addrAt s.cursor)) r.pkw r.pzd s.txbuf }

/-- `TxWrite`, `DE(1)`, `Delay`, `DE(0)`, in this order (R177). -/
def State.driveTelegram (s : State) : State :=
  ((s.txWrite.driveDe true).delay (s.cfg.deHold s.tChar s.deMargin)).driveDe false

/-- Re-arm the gate from a fresh sample and open the window (R178). -/
def State.rearm (s : State) : State :=
  { s.afterNow with nextSend := s.nowValue + s.period, windowOpen := true }

/-- `SEND` after its gate, with the cursor already wrapped (R176 to R178). -/
def State.transmit (s : State) : State := s.compose.driveTelegram.rearm

/-- The state in which `SEND`'s gate has ended and the cursor has been wrapped (R175, R176). -/
def State.selected (s : State) : State := s.afterGate.wrapCursor

/-- One step inside a `SEND`: sample the clock, and unless the gate still waits, send and answer
(R174). -/
def sendLoop (s : State) : Host.Outcome State Fault Refusal :=
  if s.gate = .waiting then done (s.afterGate.toSeq .sendGate)
  else if s.selected.cursor < s.count then
    done ((s.selected.transmit.toSeq .idle).respond rcOk 0#16)
  else .fault .cursorOutsideTable

/-- `SEND` (R174). -/
def execSend (s : State) : Host.Outcome State Fault Refusal :=
  if s.sendPhase then sendLoop s else .refused .phase

/-! ## RECEIVE -/

/-- The frame the scheduler looks at: `RXBUF[0..n)` after the read (R179). -/
def State.rxFrame (s : State) : List Byte := Memory.bytes s.afterRx.rxbuf s.rxBytes.length

/-- The telegram of an accepted frame, `none` for a rejected one: `DECODE` succeeds and the address is
the cursor's slave's (R179). -/
def State.accepted (s : State) : Option Telegram :=
  match decodeBytes s.cfg s.rxFrame with
  | .ok t => if t.address = busAddress (s.addrAt s.cursor) then some t else none
  | .malformed => none

/-- Acceptance on the slave record: both PZD words are stored, and a `Pending` request is resolved
(R180). -/
def Slave.accept (t : Telegram) (r : Slave) : Slave :=
  let r := { r with status := t.pzd.w0, actual := t.pzd.w1 }
  if r.pending then r.resolve else r

/-- The result code of `RECEIVE` (R180, R181). -/
def State.receiveCode (s : State) : Code :=
  match s.accepted with
  | some t =>
    if (s.slave s.cursor).pending then resolveCode s.cfg t.pkw.pke t.pkw.vhi t.pkw.vlo else rcOk
  | none => s.cfg.rcCommFail

/-- The slave records after `RECEIVE` (R180, R181). -/
def State.afterFrame (s : State) : State :=
  match s.accepted with
  | some t => s.afterRx.updateSlave s.cursor (Slave.accept t)
  | none => s.afterRx

/-- The tail common to both branches (R182). -/
def State.receiveTail (s : State) : State :=
  let s := s.driveDe true
  { s with cursor := s.cursor + 1, windowOpen := false }

/-- `RECEIVE` without its response (R179). -/
def State.receive (s : State) : State := s.afterFrame.receiveTail

/-- `RECEIVE` (R179). -/
def execReceive (s : State) : Host.Outcome State Fault Refusal :=
  if s.receivePhase then
    if s.cursor < s.count then done (s.receive.respond s.receiveCode 0#16)
    else .fault .cursorOutsideTable
  else .refused .phase

end Sys2Proof.Machine
end

