-- ==== Sys2Proof/Machine/Facade.lean ====
section
/-! DEFINITION. Master Facade (spec/44_facade.md): the blocking parameter writes. A step inside one is
one clock sample, and a whole scan once the gate lets it pass (log 1). -/

namespace Sys2Proof.Machine

/-- One scan after its gate: the rest of a `SEND`, then a `RECEIVE` (R200). -/
def State.scan (s : State) : State := s.selected.transmit.receive

/-- The code of that scan's `RECEIVE` (R200). -/
def State.scanCode (s : State) : Code := s.selected.transmit.receiveCode

/-- One step inside a `SETPARAM_*` for slave `idx`: sample the clock; unless the gate still waits, run
the scan, and answer its code if the slave is `Idle` again, else go on (R200, R204). -/
def paramLoop (idx : BitVec 4) (s : State) : Host.Outcome State Fault Refusal :=
  if s.gate = .waiting then done (s.afterGate.toSeq (.paramGate idx))
  else if s.selected.cursor < s.count then
    if (s.scan.slave idx.toNat).pending then done (s.scan.toSeq (.paramGate idx))
    else done ((s.scan.toSeq .idle).respond s.scanCode 0#16)
  else .fault .cursorOutsideTable

/-- `SETPARAM_*` with its request micro-operation: the index is checked first, then the phase, then the
request is recorded and the scans begin (R200, R203, R205; log 6, log 19). -/
def setparam (idx : BitVec 4) (request : Slave → Slave) (s : State) :
    Host.Outcome State Fault Refusal :=
  if s.inRange idx then
    if s.sendPhase then paramLoop idx (s.updateSlave idx.toNat request) else .refused .phase
  else done (s.afterDraw.respond (Config.freeCode s.draws) 0#16)

/-- `SETPARAM_W` (R200). -/
def execSetparamW (idx : BitVec 4) (param w : Word) (s : State) : Host.Outcome State Fault Refusal :=
  setparam idx (Slave.reqW s.cfg param w) s

/-- `SETPARAM_D` (R201). -/
def execSetparamD (idx : BitVec 4) (param : Word) (v : DWord) (s : State) :
    Host.Outcome State Fault Refusal :=
  setparam idx (Slave.reqD s.cfg param v) s

/-- `SETPARAM_F` (R202). -/
def execSetparamF (idx : BitVec 4) (param : Word) (f : DWord) (s : State) :
    Host.Outcome State Fault Refusal :=
  setparam idx (Slave.reqF s.cfg param f) s

end Sys2Proof.Machine
end

