-- ==== Sys2Proof/Machine/Illegal.lean ====
section
/-! DEFINITION. The illegal opcodes (spec/30_encoding.md R99): each is refused `IllegalOp`
(spec/60_exceptions.md R226), whatever its other bits and in every state. -/

namespace Sys2Proof.Machine

/-- CMD `op = 0x0` (R99). -/
def execIllegalOp0 (_rest : BitVec 60) (_s : State) : Host.Outcome State Fault Refusal :=
  .refused .illegalOp

/-- CMD `op = 0xC` (R99). -/
def execIllegalOpC (_rest : BitVec 60) (_s : State) : Host.Outcome State Fault Refusal :=
  .refused .illegalOp

/-- CMD `op = 0xD` (R99). -/
def execIllegalOpD (_rest : BitVec 60) (_s : State) : Host.Outcome State Fault Refusal :=
  .refused .illegalOp

/-- CMD `op = 0xE` (R99). -/
def execIllegalOpE (_rest : BitVec 60) (_s : State) : Host.Outcome State Fault Refusal :=
  .refused .illegalOp

/-- CMD `op = 0xF` (R99). -/
def execIllegalOpF (_rest : BitVec 60) (_s : State) : Host.Outcome State Fault Refusal :=
  .refused .illegalOp

end Sys2Proof.Machine
end

