-- ==== Sys2Proof/Machine/Pzd.lean ====
section
/-! DEFINITION. Process Data Channel (spec/42_pzd_channel.md): the five commands on the per-slave
process-data record. An index out of range is a silent no-op (R155). -/

namespace Sys2Proof.Machine

/-- The response of a getter: the value if in range, else a draw (R153 to R155; log 6). -/
def State.answer (s : State) (idx : BitVec 4) (value : Word) : State :=
  if s.inRange idx then s.respond rcOk value
  else s.afterDraw.respond rcOk (Config.freeValue s.draws)

/-- `SET_SETPOINT` (R150). -/
def execSetSetpoint (idx : BitVec 4) (setpoint : Word) (s : State) :
    Host.Outcome State Fault Refusal :=
  done ((s.updateInRange idx fun r => { r with setpoint := setpoint }).respond rcOk 0#16)

/-- `SET_CTL` (R151). -/
def execSetCtl (idx : BitVec 4) (mask : Word) (s : State) : Host.Outcome State Fault Refusal :=
  done ((s.updateInRange idx fun r => { r with ctl := r.ctl ||| mask }).respond rcOk 0#16)

/-- `CLR_CTL` (R152). -/
def execClrCtl (idx : BitVec 4) (mask : Word) (s : State) : Host.Outcome State Fault Refusal :=
  done ((s.updateInRange idx fun r => { r with ctl := r.ctl &&& ~~~mask }).respond rcOk 0#16)

/-- `GET_ACTUAL` (R153). -/
def execGetActual (idx : BitVec 4) (s : State) : Host.Outcome State Fault Refusal :=
  done (s.answer idx (s.slave idx.toNat).actual)

/-- `CHK_STATUS` (R154). -/
def execChkStatus (idx : BitVec 4) (mask : Word) (s : State) : Host.Outcome State Fault Refusal :=
  done (s.answer idx (statusFlag (s.slave idx.toNat).status mask))

end Sys2Proof.Machine
end

