-- ==== Sys2Proof/Machine/Dispatch.lean ====
section
/-! DEFINITION. One arm per operation: its meaning. -/

namespace Sys2Proof.Machine

def exec (i : Instr) (s : State) : Host.Outcome State Fault Refusal :=
  match i with
  | .configure n margin baud => Sys2Proof.Machine.execConfigure n margin baud s
  | .send => Sys2Proof.Machine.execSend s
  | .receive => Sys2Proof.Machine.execReceive s
  | .setparamW idx param w => Sys2Proof.Machine.execSetparamW idx param w s
  | .setparamD idx param v => Sys2Proof.Machine.execSetparamD idx param v s
  | .setparamF idx param f => Sys2Proof.Machine.execSetparamF idx param f s
  | .setSetpoint idx setpoint => Sys2Proof.Machine.execSetSetpoint idx setpoint s
  | .setCtl idx mask => Sys2Proof.Machine.execSetCtl idx mask s
  | .clrCtl idx mask => Sys2Proof.Machine.execClrCtl idx mask s
  | .getActual idx => Sys2Proof.Machine.execGetActual idx s
  | .chkStatus idx mask => Sys2Proof.Machine.execChkStatus idx mask s
  | .illegalOp0 rest => Sys2Proof.Machine.execIllegalOp0 rest s
  | .illegalOpC rest => Sys2Proof.Machine.execIllegalOpC rest s
  | .illegalOpD rest => Sys2Proof.Machine.execIllegalOpD rest s
  | .illegalOpE rest => Sys2Proof.Machine.execIllegalOpE rest s
  | .illegalOpF rest => Sys2Proof.Machine.execIllegalOpF rest s
  | .encode address k z => Sys2Proof.Machine.execEncode address k z s
  | .decode bytes => Sys2Proof.Machine.execDecode bytes s
  | .bcc buf len => Sys2Proof.Machine.execBcc buf len s
  | .noTask => Sys2Proof.Machine.execNoTask s
  | .reqW idx param w => Sys2Proof.Machine.execReqW idx param w s
  | .reqD idx param v => Sys2Proof.Machine.execReqD idx param v s
  | .reqF idx param f => Sys2Proof.Machine.execReqF idx param f s
  | .resolveNoResp idx low vhi vlo => Sys2Proof.Machine.execResolveNoResp idx low vhi vlo s
  | .resolveOther1 idx low vhi vlo => Sys2Proof.Machine.execResolveOther1 idx low vhi vlo s
  | .resolveOther2 idx low vhi vlo => Sys2Proof.Machine.execResolveOther2 idx low vhi vlo s
  | .resolveOther3 idx low vhi vlo => Sys2Proof.Machine.execResolveOther3 idx low vhi vlo s
  | .resolveOther4 idx low vhi vlo => Sys2Proof.Machine.execResolveOther4 idx low vhi vlo s
  | .resolveOther5 idx low vhi vlo => Sys2Proof.Machine.execResolveOther5 idx low vhi vlo s
  | .resolveOther6 idx low vhi vlo => Sys2Proof.Machine.execResolveOther6 idx low vhi vlo s
  | .resolveCantExecute idx low vhi vlo => Sys2Proof.Machine.execResolveCantExecute idx low vhi vlo s
  | .resolveNoRights idx low vhi vlo => Sys2Proof.Machine.execResolveNoRights idx low vhi vlo s
  | .resolveOther9 idx low vhi vlo => Sys2Proof.Machine.execResolveOther9 idx low vhi vlo s
  | .resolveOtherA idx low vhi vlo => Sys2Proof.Machine.execResolveOtherA idx low vhi vlo s
  | .resolveOtherB idx low vhi vlo => Sys2Proof.Machine.execResolveOtherB idx low vhi vlo s
  | .resolveOtherC idx low vhi vlo => Sys2Proof.Machine.execResolveOtherC idx low vhi vlo s
  | .resolveOtherD idx low vhi vlo => Sys2Proof.Machine.execResolveOtherD idx low vhi vlo s
  | .resolveOtherE idx low vhi vlo => Sys2Proof.Machine.execResolveOtherE idx low vhi vlo s
  | .resolveOtherF idx low vhi vlo => Sys2Proof.Machine.execResolveOtherF idx low vhi vlo s

end Sys2Proof.Machine
end

