-- ==== Sys2Proof/WellFormed.lean ====
section
/-! DEFINITION. Which operations an encoding can carry (spec/30_encoding.md): the operand values
that have a word. Every operand of a host command fills its CMD field, so the checks are about the
micro-operations: the 5-bit address (R83), the 11-bit parameter number (R85), whole frames (R100). -/

namespace Sys2Proof

/-- The bits an 11-bit parameter number cannot have (R85: bit 11 is "always 0" and bits 15:12 are AK). -/
def abovePnu : Word := 0xF800#16

/-- An operation that some word encodes. -/
def Instr.wellFormed : Instr → Bool
  | .configure _ _ _ => true
  | .send => true
  | .receive => true
  | .setparamW _ _ _ => true
  | .setparamD _ _ _ => true
  | .setparamF _ _ _ => true
  | .setSetpoint _ _ => true
  | .setCtl _ _ => true
  | .clrCtl _ _ => true
  | .getActual _ => true
  | .chkStatus _ _ => true
  | .illegalOp0 _ => true
  | .illegalOpC _ => true
  | .illegalOpD _ => true
  | .illegalOpE _ => true
  | .illegalOpF _ => true
  | .encode address _ _ => decide (address.toNat < 32)
  | .decode bytes => bytes.length == 16
  | .bcc buf len => buf.length == 16 && len == 15
  | .noTask => true
  | .reqW _ param _ => param &&& abovePnu == 0#16
  | .reqD _ param _ => param &&& abovePnu == 0#16
  | .reqF _ param _ => param &&& abovePnu == 0#16
  | .resolveNoResp _ _ _ _ => true
  | .resolveOther1 _ _ _ _ => true
  | .resolveOther2 _ _ _ _ => true
  | .resolveOther3 _ _ _ _ => true
  | .resolveOther4 _ _ _ _ => true
  | .resolveOther5 _ _ _ _ => true
  | .resolveOther6 _ _ _ _ => true
  | .resolveCantExecute _ _ _ _ => true
  | .resolveNoRights _ _ _ _ => true
  | .resolveOther9 _ _ _ _ => true
  | .resolveOtherA _ _ _ _ => true
  | .resolveOtherB _ _ _ _ => true
  | .resolveOtherC _ _ _ _ => true
  | .resolveOtherD _ _ _ _ => true
  | .resolveOtherE _ _ _ _ => true
  | .resolveOtherF _ _ _ _ => true

end Sys2Proof
end

