-- ==== Sys2Proof/Decode.lean ====
section
/-! DEFINITION. Decoding a port word, total and rejecting by name, and the encoder, both from the
tables of spec/30_encoding.md and spec/opcode_table.json: CMD (R92, R93, R99), FRAME (R80), PKE
(R85 to R87). The AK codes of the PKE rows are the table's own, which are the parameters' defaults. -/

namespace Sys2Proof

/-- Why a port word is no operation. -/
inductive DecodeError where
  /-- CMD `rsv != 0` under a legal opcode (R99 `ReservedBits`). -/
  | reservedBits
  /-- A word of the model's micro-operation port that names no micro-operation (log 10). -/
  | noMicroOp
  deriving DecidableEq, Repr

/-! The fields of a CMD word (R92). -/

/-- `op`, bits 63:60. -/
def cmdOp (w : BitVec 64) : BitVec 4 := w.extractLsb' 60 4
/-- `idx`, bits 59:56. -/
def cmdIdx (w : BitVec 64) : BitVec 4 := w.extractLsb' 56 4
/-- `rsv`, bits 55:48. -/
def cmdRsv (w : BitVec 64) : BitVec 8 := w.extractLsb' 48 8
/-- `a16`, bits 47:32. -/
def cmdA16 (w : BitVec 64) : Word := w.extractLsb' 32 16
/-- `v32`, bits 31:0. -/
def cmdV32 (w : BitVec 64) : DWord := w.extractLsb' 0 32
/-- Bits 59:0, which an illegal opcode leaves unexamined. -/
def cmdRest (w : BitVec 64) : BitVec 60 := w.extractLsb' 0 60

/-- A legal command: `rsv` must be 0 (R92, R99). DESIGN CHOICE: `rsv` is looked at here, before any
condition of the command's own meaning, so a word that would be refused for either reason is refused
`ReservedBits`; R221 and R226 give no order (log 12). -/
def legalCmd (w : BitVec 64) (i : Instr) : Except DecodeError Instr :=
  if cmdRsv w = 0#8 then .ok i else .error .reservedBits

/-- Decode a host command word (R93, R99). The opcode is looked at before `rsv` (log 12). -/
def decodeCmd (w : BitVec 64) : Except DecodeError Instr :=
  match (cmdOp w).toNat with
  | 0 => .ok (.illegalOp0 (cmdRest w))
  | 1 => legalCmd w (.configure (cmdIdx w) (cmdA16 w) (cmdV32 w))
  | 2 => legalCmd w .send
  | 3 => legalCmd w .receive
  | 4 => legalCmd w (.setparamW (cmdIdx w) (cmdA16 w) ((cmdV32 w).extractLsb' 0 16))
  | 5 => legalCmd w (.setparamD (cmdIdx w) (cmdA16 w) (cmdV32 w))
  | 6 => legalCmd w (.setparamF (cmdIdx w) (cmdA16 w) (cmdV32 w))
  | 7 => legalCmd w (.setSetpoint (cmdIdx w) (cmdA16 w))
  | 8 => legalCmd w (.setCtl (cmdIdx w) (cmdA16 w))
  | 9 => legalCmd w (.clrCtl (cmdIdx w) (cmdA16 w))
  | 10 => legalCmd w (.getActual (cmdIdx w))
  | 11 => legalCmd w (.chkStatus (cmdIdx w) (cmdA16 w))
  | 12 => .ok (.illegalOpC (cmdRest w))
  | 13 => .ok (.illegalOpD (cmdRest w))
  | 14 => .ok (.illegalOpE (cmdRest w))
  | _ => .ok (.illegalOpF (cmdRest w))

/-- The word at offsets `k`, `k + 1` of a frame, big-endian (R51). -/
def frameWord (bytes : List Byte) (k : Nat) : Word := bytes.getD k 0#8 ++ bytes.getD (k + 1) 0#8

/-- The operands an `ENCODE` row's frame shows (R80). The length byte and the BCC are what `ENCODE`
produces, not operands. -/
def encodeOperands (bytes : List Byte) : Instr :=
  .encode (bytes.getD 2 0#8)
    ⟨frameWord bytes 3, frameWord bytes 5, frameWord bytes 7, frameWord bytes 9⟩
    ⟨frameWord bytes 11, frameWord bytes 13⟩

/-- Pattern of the `ENCODE` row: STX, and ADR bits 7:5 zero. -/
def encodePattern (bytes : List Byte) : Bool :=
  bytes.getD 0 0#8 == 0x02#8 && (bytes.getD 2 0#8).extractLsb' 5 3 == 0#3

/-- Pattern of the `DECODE` row: STX. -/
def decodePattern (bytes : List Byte) : Bool := bytes.getD 0 0#8 == 0x02#8

/-- Decode a FRAME word: by the selector, or by the most specific row that matches (log 10, log 11). -/
def decodeFrameWord (bytes : List Byte) (sel : BitVec 2) : Except DecodeError Instr :=
  if bytes.length = 16 then
    match sel.toNat with
    | 0 =>
      if encodePattern bytes then .ok (encodeOperands bytes)
      else if decodePattern bytes then .ok (.decode bytes)
      else .ok (.bcc bytes 15)
    | 1 => if encodePattern bytes then .ok (encodeOperands bytes) else .error .noMicroOp
    | 2 => .ok (.decode bytes)
    | _ => .ok (.bcc bytes 15)
  else .error .noMicroOp

/-- `RESOLVE` of a response, one row for each ack nibble (R87). -/
def resolveRow (idx : BitVec 4) (w : Pkw) : Instr :=
  let low : BitVec 12 := w.pke.extractLsb' 0 12
  match (w.pke.extractLsb' 12 4).toNat with
  | 0 => .resolveNoResp idx low w.vhi w.vlo
  | 1 => .resolveOther1 idx low w.vhi w.vlo
  | 2 => .resolveOther2 idx low w.vhi w.vlo
  | 3 => .resolveOther3 idx low w.vhi w.vlo
  | 4 => .resolveOther4 idx low w.vhi w.vlo
  | 5 => .resolveOther5 idx low w.vhi w.vlo
  | 6 => .resolveOther6 idx low w.vhi w.vlo
  | 7 => .resolveCantExecute idx low w.vhi w.vlo
  | 8 => .resolveNoRights idx low w.vhi w.vlo
  | 9 => .resolveOther9 idx low w.vhi w.vlo
  | 10 => .resolveOtherA idx low w.vhi w.vlo
  | 11 => .resolveOtherB idx low w.vhi w.vlo
  | 12 => .resolveOtherC idx low w.vhi w.vlo
  | 13 => .resolveOtherD idx low w.vhi w.vlo
  | 14 => .resolveOtherE idx low w.vhi w.vlo
  | _ => .resolveOtherF idx low w.vhi w.vlo

/-- PKE pattern `00100ppppppppppp`, the row `REQ_W` (R86). -/
def reqWPattern (pke : Word) : Bool := pke.extractLsb' 11 5 == 0b00100#5

/-- PKE pattern `00110ppppppppppp`, the rows `REQ_D` and `REQ_F` (R86). -/
def reqDPattern (pke : Word) : Bool := pke.extractLsb' 11 5 == 0b00110#5

/-- The parameter number, bits 10:0, zero-extended (R85). -/
def pnuField (pke : Word) : Word := pke &&& 0x07FF#16

/-- Decode a PKW word: by the selector, or by the first row of the table that matches (log 10, log 11). -/
def decodePkw (w : Pkw) (idx sel : Word) : Except DecodeError Instr :=
  let i : BitVec 4 := idx.extractLsb' 0 4
  if idx.toNat < 16 then
    match sel.toNat with
    | 0 =>
      if w.pke = 0#16 then .ok .noTask
      else if reqWPattern w.pke then .ok (.reqW i (pnuField w.pke) w.vlo)
      else if reqDPattern w.pke then .ok (.reqD i (pnuField w.pke) (w.vhi ++ w.vlo))
      else .ok (resolveRow i w)
    | 1 => .ok (resolveRow i w)
    | 2 =>
      if reqDPattern w.pke then .ok (.reqF i (pnuField w.pke) (w.vhi ++ w.vlo))
      else .error .noMicroOp
    | _ => .error .noMicroOp
  else .error .noMicroOp

/-- Decode a port word. Total: every word is an operation or is rejected by name. -/
def decode : PortWord → Except DecodeError Instr
  | .cmd w => decodeCmd w
  | .frame bytes sel => decodeFrameWord bytes sel
  | .pkw w idx sel => decodePkw w idx sel

/-! The encoder, from the same tables. -/

/-- A legal CMD word: `rsv` is 0 and fields a command does not use are 0 (R92). -/
def mkCmd (op idx : BitVec 4) (a16 : Word) (v32 : DWord) : BitVec 64 :=
  op ++ idx ++ 0#8 ++ a16 ++ v32

/-- A CMD word with an illegal opcode. -/
def mkIllegal (op : BitVec 4) (rest : BitVec 60) : BitVec 64 := op ++ rest

/-- Bytes of a word in wire order, high byte first (R51). -/
def wireBytes (w : Word) : List Byte := [w.extractLsb' 8 8, w.extractLsb' 0 8]

/-- Offsets 0 to 14 of an `ENCODE` row's frame, with the default length byte (R80). -/
def encodeRowBody (address : Byte) (k : Pkw) (z : Pzd) : List Byte :=
  [0x02#8, 0x0E#8, address] ++ wireBytes k.pke ++ wireBytes k.ind ++ wireBytes k.vhi
    ++ wireBytes k.vlo ++ wireBytes z.w0 ++ wireBytes z.w1

/-- An `ENCODE` row's whole frame: offset 15 is the XOR of offsets 0 to 14 (R91). -/
def encodeRowFrame (address : Byte) (k : Pkw) (z : Pzd) : List Byte :=
  encodeRowBody address k z ++ [(encodeRowBody address k z).foldl (· ^^^ ·) 0#8]

/-- A request: PKE is the row's AK in bits 15:12 and the parameter number in bits 10:0 (R85, R86). -/
def requestWord (ak : BitVec 4) (idx : BitVec 4) (param vhi vlo : Word) (sel : Word) : PortWord :=
  .pkw ⟨ak ++ param.extractLsb' 0 12, 0#16, vhi, vlo⟩ (idx.setWidth 16) sel

/-- A response with the row's ack nibble in bits 15:12 (R85, R87). -/
def responseWord (ak : BitVec 4) (idx : BitVec 4) (low : BitVec 12) (vhi vlo : Word) : PortWord :=
  .pkw ⟨ak ++ low, 0#16, vhi, vlo⟩ (idx.setWidth 16) 1#16

/-- The word of a well-formed operation. -/
def encode : Instr → PortWord
  | .configure n margin baud => .cmd (mkCmd 0x1#4 n margin baud)
  | .send => .cmd (mkCmd 0x2#4 0#4 0#16 0#32)
  | .receive => .cmd (mkCmd 0x3#4 0#4 0#16 0#32)
  | .setparamW idx param w => .cmd (mkCmd 0x4#4 idx param (0#16 ++ w))
  | .setparamD idx param v => .cmd (mkCmd 0x5#4 idx param v)
  | .setparamF idx param f => .cmd (mkCmd 0x6#4 idx param f)
  | .setSetpoint idx setpoint => .cmd (mkCmd 0x7#4 idx setpoint 0#32)
  | .setCtl idx mask => .cmd (mkCmd 0x8#4 idx mask 0#32)
  | .clrCtl idx mask => .cmd (mkCmd 0x9#4 idx mask 0#32)
  | .getActual idx => .cmd (mkCmd 0xA#4 idx 0#16 0#32)
  | .chkStatus idx mask => .cmd (mkCmd 0xB#4 idx mask 0#32)
  | .illegalOp0 rest => .cmd (mkIllegal 0x0#4 rest)
  | .illegalOpC rest => .cmd (mkIllegal 0xC#4 rest)
  | .illegalOpD rest => .cmd (mkIllegal 0xD#4 rest)
  | .illegalOpE rest => .cmd (mkIllegal 0xE#4 rest)
  | .illegalOpF rest => .cmd (mkIllegal 0xF#4 rest)
  | .encode address k z => .frame (encodeRowFrame address k z) 1#2
  | .decode bytes => .frame bytes 2#2
  | .bcc buf _ => .frame buf 3#2
  | .noTask => .pkw ⟨0#16, 0#16, 0#16, 0#16⟩ 0#16 0#16
  | .reqW idx param w => requestWord 0x2#4 idx param 0#16 w 0#16
  | .reqD idx param v => requestWord 0x3#4 idx param (v.extractLsb' 16 16) (v.extractLsb' 0 16) 0#16
  | .reqF idx param f => requestWord 0x3#4 idx param (f.extractLsb' 16 16) (f.extractLsb' 0 16) 2#16
  | .resolveNoResp idx low vhi vlo => responseWord 0x0#4 idx low vhi vlo
  | .resolveOther1 idx low vhi vlo => responseWord 0x1#4 idx low vhi vlo
  | .resolveOther2 idx low vhi vlo => responseWord 0x2#4 idx low vhi vlo
  | .resolveOther3 idx low vhi vlo => responseWord 0x3#4 idx low vhi vlo
  | .resolveOther4 idx low vhi vlo => responseWord 0x4#4 idx low vhi vlo
  | .resolveOther5 idx low vhi vlo => responseWord 0x5#4 idx low vhi vlo
  | .resolveOther6 idx low vhi vlo => responseWord 0x6#4 idx low vhi vlo
  | .resolveCantExecute idx low vhi vlo => responseWord 0x7#4 idx low vhi vlo
  | .resolveNoRights idx low vhi vlo => responseWord 0x8#4 idx low vhi vlo
  | .resolveOther9 idx low vhi vlo => responseWord 0x9#4 idx low vhi vlo
  | .resolveOtherA idx low vhi vlo => responseWord 0xA#4 idx low vhi vlo
  | .resolveOtherB idx low vhi vlo => responseWord 0xB#4 idx low vhi vlo
  | .resolveOtherC idx low vhi vlo => responseWord 0xC#4 idx low vhi vlo
  | .resolveOtherD idx low vhi vlo => responseWord 0xD#4 idx low vhi vlo
  | .resolveOtherE idx low vhi vlo => responseWord 0xE#4 idx low vhi vlo
  | .resolveOtherF idx low vhi vlo => responseWord 0xF#4 idx low vhi vlo

/-! Words numbered as spec/opcode_table.json numbers them (log 11). -/

/-- Byte `k` of a word numbered with the first byte lowest: bits `8k+7 .. 8k`. -/
def tableByte (w k : Nat) : Byte := BitVec.ofNat 8 (w / 2 ^ (8 * k))

/-- 16-bit word `k` of a word numbered with the first word lowest: bits `16k+15 .. 16k`. -/
def tableHalf (w k : Nat) : Word := BitVec.ofNat 16 (w / 2 ^ (16 * k))

/-- The port word of a table row: 64 bits are a CMD word, 128 bits a FRAME (byte 0 lowest), and
anything else a PKE word followed by the operand words IND, value-high, value-low, index, selector. -/
def tableWord (nbits w : Nat) : PortWord :=
  if nbits = 64 then .cmd (BitVec.ofNat 64 w)
  else if nbits = 128 then .frame ((List.range 16).map (tableByte w)) 0#2
  else .pkw ⟨tableHalf w 0, tableHalf w 1, tableHalf w 2, tableHalf w 3⟩ (tableHalf w 4) (tableHalf w 5)

/-- The operation the decoder reads from a table row's word, `none` where it rejects. -/
def decodeTableWord (nbits w : Nat) : Option Instr :=
  match decode (tableWord nbits w) with
  | .ok i => some i
  | .error _ => none

end Sys2Proof
end

