-- ==== Sys2Proof/Machine/Fetch.lean ====
section
/-! DEFINITION. What the sequencer does between operations: accepting a command from the port (R63,
R92, R95), going on with one that has not completed (R175, R204), and placing a word at the port. -/

namespace Sys2Proof.Machine

/-- What the port offers to an idle sequencer. -/
inductive Fetched where
  /-- No command has been issued: the block waits. -/
  | nothing
  /-- A word that is no operation. -/
  | bad (r : Refusal)
  /-- An operation, and the state in which it has been accepted. -/
  | run (i : Instr) (s : State)

/-- The refusal of a word that does not decode (R226, log 10). -/
def refusalOf : DecodeError → Refusal
  | .reservedBits => .reservedBits
  | .noMicroOp => .noMicroOp

/-- Accept the oldest command: it leaves the port and its side inputs are sampled (R95). -/
def State.accept (s : State) (e : PortEntry) (rest : List PortEntry) : State :=
  { s with port := rest, cfgListPresent := e.listPresent, cfgAddr := e.addrs }

/-- Look at the port (R63, R92). DESIGN CHOICE: a word with `rsv != 0` is refused here, so before
`Reconfigure`, `BaudZero`, `Phase`, a configuration error, or the no-op of an index out of range can come up;
the spec gives no order for a word with both (log 12). -/
def fetch (s : State) : Fetched :=
  match s.port with
  | [] => .nothing
  | e :: rest =>
    match decode e.word with
    | .ok i => .run i (s.accept e rest)
    | .error r => .bad (refusalOf r)

/-- Place a word at the head of the port of an idle sequencer, with the side inputs as they stand. -/
def State.placeWord (s : State) (w : PortWord) : State :=
  { s with
    port := ⟨w, s.cfgListPresent, s.cfgAddr⟩ :: s.port
    seq := .idle
    resetLine := false }

end Sys2Proof.Machine
end

