-- ==== Sys2Proof/Machine/Step.lean ====
section
/-! DEFINITION. One step of the sequencer. -/

namespace Sys2Proof.Machine

/-- One step: the reset input first (R240); else go on with the command being executed, one clock sample
at a time (R63, R175, R204); else execute the oldest command at the port; with none, the block keeps its
state (R12). -/
def step (s : State) : Host.Outcome State Fault Refusal :=
  if s.resetLine then .next s.hardwareReset
  else
    match s.seq with
    | .sendGate => sendLoop s
    | .paramGate idx => paramLoop idx s
    | .idle =>
      match fetch s with
      | .nothing => .next s
      | .bad r => .refused r
      | .run i t => exec i t

/-- `s` with the word of a table row where `step` takes its next operation: at the head of the port of
an idle sequencer (log 11, log 20). -/
def State.withFetchWord (s : State) (nbits w : Nat) : State := s.placeWord (tableWord nbits w)

end Sys2Proof.Machine
end

