-- ==== Sys2Proof/Safety.lean ====
section
/-! DEFINITION. What counts as a safe run: the invariants of spec/10_state.md R42, the order of the
interface events (R64, R185, R186), the minimum period (R184), and the vocabulary the statements about
runs use (R183). -/

namespace Sys2Proof

/-- A word the host can issue: a CMD word (R3, R92). -/
def PortWord.isCmd : PortWord → Bool
  | .cmd _ => true
  | .frame _ _ => false
  | .pkw _ _ _ => false

/-- The operations that work on the bus or the configuration. -/
def Instr.isBus : Instr → Bool
  | .configure _ _ _ => true
  | .send => true
  | .receive => true
  | .setparamW _ _ _ => true
  | .setparamD _ _ _ => true
  | .setparamF _ _ _ => true
  | .setSetpoint _ _ => false
  | .setCtl _ _ => false
  | .clrCtl _ _ => false
  | .getActual _ => false
  | .chkStatus _ _ => false
  | .illegalOp0 _ => false
  | .illegalOpC _ => false
  | .illegalOpD _ => false
  | .illegalOpE _ => false
  | .illegalOpF _ => false
  | .encode _ _ _ => false
  | .decode _ => false
  | .bcc _ _ => false
  | .noTask => false
  | .reqW _ _ _ => false
  | .reqD _ _ _ => false
  | .reqF _ _ _ => false
  | .resolveNoResp _ _ _ _ => false
  | .resolveOther1 _ _ _ _ => false
  | .resolveOther2 _ _ _ _ => false
  | .resolveOther3 _ _ _ _ => false
  | .resolveOther4 _ _ _ _ => false
  | .resolveOther5 _ _ _ _ => false
  | .resolveOther6 _ _ _ _ => false
  | .resolveCantExecute _ _ _ _ => false
  | .resolveNoRights _ _ _ _ => false
  | .resolveOther9 _ _ _ _ => false
  | .resolveOtherA _ _ _ _ => false
  | .resolveOtherB _ _ _ _ => false
  | .resolveOtherC _ _ _ _ => false
  | .resolveOtherD _ _ _ _ => false
  | .resolveOtherE _ _ _ _ => false
  | .resolveOtherF _ _ _ _ => false

/-- The operations that record, resolve or wait for a parameter request of slave `k`. -/
def Instr.requests (k : Nat) : Instr → Bool
  | .configure _ _ _ => false
  | .send => false
  | .receive => false
  | .setparamW idx _ _ => decide (idx.toNat = k)
  | .setparamD idx _ _ => decide (idx.toNat = k)
  | .setparamF idx _ _ => decide (idx.toNat = k)
  | .setSetpoint _ _ => false
  | .setCtl _ _ => false
  | .clrCtl _ _ => false
  | .getActual _ => false
  | .chkStatus _ _ => false
  | .illegalOp0 _ => false
  | .illegalOpC _ => false
  | .illegalOpD _ => false
  | .illegalOpE _ => false
  | .illegalOpF _ => false
  | .encode _ _ _ => false
  | .decode _ => false
  | .bcc _ _ => false
  | .noTask => false
  | .reqW idx _ _ => decide (idx.toNat = k)
  | .reqD idx _ _ => decide (idx.toNat = k)
  | .reqF idx _ _ => decide (idx.toNat = k)
  | .resolveNoResp idx _ _ _ => decide (idx.toNat = k)
  | .resolveOther1 idx _ _ _ => decide (idx.toNat = k)
  | .resolveOther2 idx _ _ _ => decide (idx.toNat = k)
  | .resolveOther3 idx _ _ _ => decide (idx.toNat = k)
  | .resolveOther4 idx _ _ _ => decide (idx.toNat = k)
  | .resolveOther5 idx _ _ _ => decide (idx.toNat = k)
  | .resolveOther6 idx _ _ _ => decide (idx.toNat = k)
  | .resolveCantExecute idx _ _ _ => decide (idx.toNat = k)
  | .resolveNoRights idx _ _ _ => decide (idx.toNat = k)
  | .resolveOther9 idx _ _ _ => decide (idx.toNat = k)
  | .resolveOtherA idx _ _ _ => decide (idx.toNat = k)
  | .resolveOtherB idx _ _ _ => decide (idx.toNat = k)
  | .resolveOtherC idx _ _ _ => decide (idx.toNat = k)
  | .resolveOtherD idx _ _ _ => decide (idx.toNat = k)
  | .resolveOtherE idx _ _ _ => decide (idx.toNat = k)
  | .resolveOtherF idx _ _ _ => decide (idx.toNat = k)

end Sys2Proof

namespace Sys2Proof.Machine

/-! ## Invariants of the state -/

/-- What R42 says of a slave record: a pending request is of a configured slave, its reserved word is 0,
its task code is one of the two the block emits, and PKE bit 11 is 0. -/
structure RecordOk (c : Config) (count i : Nat) (r : Slave) : Prop where
  configuredSlave : r.pending = true → i < count
  indZero         : r.pending = true → r.ind = 0#16
  taskCode        : r.pending = true → akOf r.pke = c.akChwPwe ∨ akOf r.pke = c.akChdPwe
  bit11           : r.pending = true → r.pke.extractLsb' 11 1 = 0#1

/-- The invariant of R42, with the canonical form of the two frame buffers and what the sequencer's phase
implies. -/
structure State.Inv (s : State) : Prop where
  params       : s.cfg.Valid
  slavesLength : s.slaves.length = s.cfg.maxSlaves
  addrLength   : s.addr.length = s.cfg.maxSlaves
  countBound   : s.count ≤ s.cfg.maxSlaves
  cursorBound  : s.cursor ≤ s.count
  windowPhase  : s.windowOpen = true → s.configured = true ∧ s.cursor < s.count ∧ s.de = false
  closedPhase  : s.configured = true → s.windowOpen = false → s.de = true
  configuredOk : s.configured = true → 1 ≤ s.count ∧ s.deMode = .output
  unconfigured : s.configured = false →
    s.count = 0 ∧ s.cursor = 0 ∧ s.windowOpen = false ∧ s.nextSend = 0 ∧
      ∀ i, s.slave i = Slave.reset
  records      : ∀ i, RecordOk s.cfg s.count i (s.slave i)
  txbufWf      : Memory.wf s.txbuf = true
  rxbufWf      : Memory.wf s.rxbuf = true
  sendPhase    : s.seq = .sendGate → s.sendPhase = true
  paramPhase   : ∀ idx, s.seq = .paramGate idx →
    s.sendPhase = true ∧ s.inRange idx = true ∧ (s.slave idx.toNat).pending = true

/-! ## Runs of host commands only -/

/-- A state in which only host commands are issued and the only pending request is the one the
`SETPARAM_*` being executed waits for (R251). -/
structure State.HostOnly (s : State) : Prop where
  commands    : ∀ e ∈ s.port, e.word.isCmd = true
  onlyPending : ∀ i, (s.slave i).pending = true → ∃ idx, s.seq = .paramGate idx ∧ idx.toNat = i

/-! ## The order of the interface events -/

/-- Where the block is in the order of its interface events (R64, R173, R177, R178, R182). -/
inductive BusPhase where
  /-- Nothing emitted. -/
  | off
  /-- `PinMode(output)` emitted. -/
  | pin
  /-- The line is asserted and no telegram is on its way. -/
  | ready
  /-- At least one clock sample of a gate taken. -/
  | sampled
  /-- `TxWrite` emitted. -/
  | written
  /-- `DE(1)` emitted after it. -/
  | driving
  /-- `Delay` emitted. -/
  | held
  /-- `DE(0)` emitted. -/
  | released
  /-- The re-arming sample taken: the window is open. -/
  | window
  /-- `RxRead` emitted. -/
  | read
  deriving DecidableEq, Repr

/-- The one event order the rules allow, with a 16-byte telegram and a read of at most 16 bytes. -/
def BusPhase.after : BusPhase → Event → Option BusPhase
  | .off, .pinMode => some .pin
  | .pin, .de true => some .ready
  | .ready, .now _ => some .sampled
  | .sampled, .now _ => some .sampled
  | .sampled, .txWrite bytes => if bytes.length = frameLen then some .written else none
  | .written, .de true => some .driving
  | .driving, .delay _ => some .held
  | .held, .de false => some .released
  | .released, .now _ => some .window
  | .window, .rxRead bytes => if bytes.length ≤ frameLen then some .read else none
  | .read, .de true => some .ready
  | _, _ => none

/-- Follow a trace; `none` once an event is out of order. -/
def busPhase (trace : List Event) : Option BusPhase :=
  trace.foldl (fun p e => p.bind fun q => q.after e) (some .off)

/-- The trace is in order, and where it stands is what the flags and the sequencer say. -/
structure State.BusOrder (s : State) : Prop where
  off    : s.configured = false → busPhase s.trace = some .off
  window : s.windowOpen = true → busPhase s.trace = some .window
  closed : s.configured = true → s.windowOpen = false →
    busPhase s.trace = some .ready ∨ (busPhase s.trace = some .sampled ∧ s.seq ≠ .idle)

/-! ## The minimum period -/

/-- What a reader of the trace keeps to check R184: the gate sample taken since the last `TxWrite`, the
earliest time of the next `TxWrite`, whether the next sample re-arms the gate, whether every `TxWrite` so
far was in time (case (a) of R175), and whether every one that was not had its gate abandoned (case (b)). -/
structure PeriodCheck where
  sample   : Option Tick
  allowed  : Tick
  rearming : Bool
  inTime   : Bool
  excused  : Bool
  deriving DecidableEq, Repr

/-- `TxWrite` after the gate sample `t`, or after none. -/
def PeriodCheck.sent (bound : Tick) (p : PeriodCheck) : PeriodCheck :=
  match p.sample with
  | some t =>
    { p with
      sample := none, rearming := true
      inTime := p.inTime && decide (p.allowed ≤ t)
      excused := p.excused && (decide (p.allowed ≤ t) || decide (bound ≤ p.allowed - t)) }
  | none => { p with rearming := true, inTime := false, excused := false }

/-- One event of the trace, read with the minimum period `period` and the bound of the anomaly escape. -/
def PeriodCheck.after (period bound : Tick) (p : PeriodCheck) : Event → PeriodCheck
  | .now t =>
    if p.rearming then { p with allowed := t + period, rearming := false }
    else { p with sample := some t }
  | .txWrite _ => p.sent bound
  | .rxRead _ => p
  | .pinMode => p
  | .de _ => p
  | .delay _ => p

/-- Check a whole trace. -/
def periodCheck (period bound : Tick) (trace : List Event) : PeriodCheck :=
  trace.foldl (PeriodCheck.after period bound) ⟨none, 0, false, true, true⟩

/-- The check of the block's own trace, with `ANOMALY_BOUND` of 10 seconds. -/
def State.periodCheck (s : State) : PeriodCheck :=
  Machine.periodCheck s.period (10 * s.cfg.ticksPerSecond) s.trace

/-- The gate is armed with the time the trace implies, every `TxWrite` that was not in time had its gate
abandoned, and `gate_abandoned` is set exactly if there was one (R184, R38). -/
structure State.PeriodOk (s : State) : Prop where
  unconfigured : s.configured = false → s.trace = [] ∧ s.nextSend = 0
  armed        : s.periodCheck.allowed = s.nextSend ∧ s.periodCheck.rearming = false
  excused      : s.periodCheck.excused = true
  sticky       : s.gateAbandoned = !s.periodCheck.inTime

/-! ## Vocabulary of the statements -/

/-- The sixteen rows of `RESOLVE` with their ack nibbles (R87). -/
def resolveRows : List (BitVec 4 × (BitVec 4 → BitVec 12 → Word → Word → Instr)) :=
  [(0x0#4, .resolveNoResp), (0x1#4, .resolveOther1), (0x2#4, .resolveOther2), (0x3#4, .resolveOther3),
   (0x4#4, .resolveOther4), (0x5#4, .resolveOther5), (0x6#4, .resolveOther6),
   (0x7#4, .resolveCantExecute)]
  ++ [(0x8#4, .resolveNoRights), (0x9#4, .resolveOther9), (0xA#4, .resolveOtherA),
   (0xB#4, .resolveOtherB), (0xC#4, .resolveOtherC), (0xD#4, .resolveOtherD), (0xE#4, .resolveOtherE),
   (0xF#4, .resolveOtherF)]

/-- `BusRun s l u`: from `s`, operations executed one after another end in `u`, where `l` lists the slave
index of every `SEND` that completed, in order. Waiting gate samples, `RECEIVE`s and operations that do
not work on the bus come anywhere between (R183). -/
inductive BusRun : State → List Nat → State → Prop where
  | nil (s : State) : BusRun s [] s
  | sent {s t u : State} {l : List Nat} (h : exec .send s = .next t) (hw : t.windowOpen = true)
      (rest : BusRun t l u) : BusRun s (t.cursor :: l) u
  | waited {s t u : State} {l : List Nat} (h : exec .send s = .next t) (hw : t.windowOpen = false)
      (rest : BusRun t l u) : BusRun s l u
  | received {s t u : State} {l : List Nat} (h : exec .receive s = .next t)
      (rest : BusRun t l u) : BusRun s l u
  | other {s t u : State} {l : List Nat} {i : Instr} (hi : i.isBus = false)
      (h : exec i s = .next t) (rest : BusRun t l u) : BusRun s l u

/-- XOR of a byte sequence (R91, R110). -/
def xorOf (bytes : List Byte) : Byte := bytes.foldl (fun x b => x ^^^ b) 0x00#8

/-- A frame that passes every check of `DECODE` (R112, R113): 16 bytes, STX, the length byte only if
`CHECK_LGE`, and a BCC that is the XOR of offsets 0 to 14. -/
def FrameOk (c : Config) (f : List Byte) : Prop :=
  f.length = 16 ∧ f.getD 0 0#8 = 0x02#8 ∧ (c.checkLge = true → f.getD 1 0#8 = c.lge) ∧
    f.getD 15 0#8 = xorOf (f.take 15)

/-- A frame `RECEIVE` accepts from the slave at bus address `a` (R179): `FrameOk`, and the address byte's
low 5 bits are `a`. -/
def FrameFrom (c : Config) (a : BitVec 5) (f : List Byte) : Prop :=
  FrameOk c f ∧ (f.getD 2 0#8).extractLsb' 0 5 = a

/-- The word of a frame at offset `k`, high byte first (R51). -/
def frameWordAt (f : List Byte) (k : Nat) : Word := f.getD k 0#8 ++ f.getD (k + 1) 0#8

/-- The 16 bytes of a telegram from the master (R80): the frame without its BCC, then their XOR. -/
def telegramBody (lge : Byte) (a : Byte) (k : Pkw) (z : Pzd) : List Byte :=
  [0x02#8, lge, a &&& 0x1F#8, hi8 k.pke, lo8 k.pke, hi8 k.ind, lo8 k.ind, hi8 k.vhi, lo8 k.vhi,
   hi8 k.vlo, lo8 k.vlo, hi8 z.w0, lo8 z.w0, hi8 z.w1, lo8 z.w1]

/-- The whole telegram (R80, R91). -/
def telegram (lge : Byte) (a : Byte) (k : Pkw) (z : Pzd) : List Byte :=
  telegramBody lge a k z ++ [xorOf (telegramBody lge a k z)]

/-- The code of a response's acknowledgment, read from the whole frame `f` as R134 tabulates it. -/
def ackCodeOf (c : Config) (f : List Byte) : Code :=
  let ack : BitVec 4 := (frameWordAt f 3).extractLsb' 12 4
  let e := c.errcode (frameWordAt f 7) (frameWordAt f 9)
  if ack = c.akNoResp then 0xFFFFFFFF#32
  else if ack = c.akNoRights then 0xFFFFFFFE#32
  else if ack = c.akCantExecute then if e = 0#16 then 0xFFFFFFFD#32 else e.setWidth 32
  else 0#32

/-- The request each `SETPARAM_*` records: task code, parameter number masked to 11 bits, value words
(R130 to R132, R200 to R202). -/
inductive IsSetparam (c : Config) : Instr → BitVec 4 → (pke vhi vlo : Word) → Prop where
  | word (idx : BitVec 4) (param w : Word) :
      IsSetparam c (.setparamW idx param w) idx
        (c.akChwPwe.setWidth 16 <<< 12 ||| param &&& 0x07FF#16) 0x0000#16 w
  | dword (idx : BitVec 4) (param : Word) (v : DWord) :
      IsSetparam c (.setparamD idx param v) idx
        (c.akChdPwe.setWidth 16 <<< 12 ||| param &&& 0x07FF#16) (v.extractLsb' 16 16)
        (v.extractLsb' 0 16)
  | float (idx : BitVec 4) (param : Word) (f : DWord) :
      IsSetparam c (.setparamF idx param f) idx
        (c.akChdPwe.setWidth 16 <<< 12 ||| param &&& 0x07FF#16) (f.extractLsb' 16 16)
        (f.extractLsb' 0 16)

/-- The cursor's slave once a `SEND` has wrapped the cursor (R176). -/
def State.wrapped (s : State) : Nat := if s.cursor = s.count then 0 else s.cursor

/-- The next clock sample ends the gate, by case (a) or case (b) of R175. -/
def State.gateEnds (s : State) : Prop :=
  s.nextSend ≤ s.nowValue ∨ 10 * s.cfg.ticksPerSecond ≤ s.nextSend - s.nowValue

/-- The telegram to slave `i` as its record stands (R176). -/
def State.telegramTo (s : State) (i : Nat) : List Byte :=
  let r := s.slave i
  telegram s.cfg.lge ((s.addrAt i).setWidth 8)
    (if r.pending then ⟨r.pke, r.ind, r.vhi, r.vlo⟩ else ⟨0#16, 0#16, 0#16, 0#16⟩)
    ⟨r.ctl, r.setpoint⟩

/-- The events of a `SEND` after its gate: the telegram, the driver-enable sequence, and the re-arming
sample (R177, R178). -/
def State.sendEvents (s : State) (tele : List Byte) (t2 : Tick) : List Event :=
  [.txWrite tele, .de true, .delay (s.cfg.kDe * s.cfg.startDelayChars * s.tChar + s.deMargin),
   .de false, .now t2]

/-- The telegrams in a list of events, oldest first. -/
def txWrites : List Event → List (List Byte)
  | [] => []
  | .txWrite bytes :: r => bytes :: txWrites r
  | .rxRead _ :: r => txWrites r
  | .now _ :: r => txWrites r
  | .pinMode :: r => txWrites r
  | .de _ :: r => txWrites r
  | .delay _ :: r => txWrites r

/-- A scan that begins in `s` ends with an accepted frame from slave `k`: the clock sample ends the gate,
it is the slave's turn, and the frame is from it. -/
def State.scanAccepts (s : State) (k : Nat) : Prop :=
  s.gateEnds ∧ s.wrapped = k ∧ FrameFrom s.cfg (s.addrAt k) s.afterNow.afterNow.rxBytes

/-- `Unresolved k s u`: from `s` the block gets to `u`, an idle sequencer by executing operations and one
inside a `SEND` or a `SETPARAM_*` by going on with it (R63), with no request for slave `k` among them and
no `RECEIVE` that accepts a frame from slave `k`, alone or inside a `SETPARAM_*` (R137). -/
inductive Unresolved (k : Nat) : State → State → Prop where
  | nil (s : State) : Unresolved k s s
  | op {s t u : State} {i : Instr} (hq : s.seq = .idle) (hr : i.requests k = false)
      (ha : i = .receive → s.cursor = k → ¬ FrameFrom s.cfg (s.addrAt k) s.rxBytes)
      (hs : ∀ idx pke vhi vlo, IsSetparam s.cfg i idx pke vhi vlo → idx.toNat < s.count →
        ¬ s.scanAccepts k)
      (h : exec i s = .next t) (rest : Unresolved k t u) : Unresolved k s u
  | goesOn {s t u : State} (hq : s.seq ≠ .idle) (hl : s.resetLine = false)
      (ha : ∀ idx, s.seq = .paramGate idx → ¬ s.scanAccepts k)
      (h : step s = .next t) (rest : Unresolved k t u) : Unresolved k s u

/-- `SendsOnce k s t`: a transition that runs one `SEND`, or one sample of its gate: a `SEND`, the first
scan of a `SETPARAM_*` of a slave other than `k`, or the next one of whatever the block is inside. -/
inductive SendsOnce (k : Nat) (s t : State) : Prop where
  | send (h : exec .send s = .next t)
  | setparam {i : Instr} {idx : BitVec 4} {pke vhi vlo : Word}
      (hs : IsSetparam s.cfg i idx pke vhi vlo) (hr : idx.toNat < s.count) (hk : idx.toNat ≠ k)
      (h : exec i s = .next t)
  | goesOn (hq : s.seq ≠ .idle) (hl : s.resetLine = false) (h : step s = .next t)

/-- The frame in `s` of a command whose index is `idx`: record `idx` becomes `f` of itself if `idx` is in
range, every other record and every other field is as before, and the response is appended. -/
structure OnlyRecord (s t : State) (idx : BitVec 4) (f : Slave → Slave) (responses : List Response) :
    Prop where
  records : ∀ i, t.slave i =
    if i = idx.toNat ∧ idx.toNat < s.count then f (s.slave i) else s.slave i
  length  : t.slaves.length = s.slaves.length
  others  : t = { s with slaves := t.slaves, responses := s.responses ++ responses }

end Sys2Proof.Machine
end

