-- ==== Sys2Proof/Certificates/Slice0/Obligations.lean ====
section
/-! DEFINITION. The statements for the provers: encodings, the result and the frame of every operation,
where it completes and where it stops, and the invariants and whole-run rules of spec/. `D<n>` is a
decision of spec/92_eei_decisions.md, `log <n>` a row of notes/assumptions/. -/

open Sys2Proof Sys2Proof.Machine

/-! ## Encodings -/

/-- Decoding the word of any well-formed operation gives it back, with every operand. -/
def Obligations.DecodeOfEncodeIsIdentity : Prop :=
  ∀ i : Instr, i.wellFormed = true → decode (encode i) = .ok i

/-- The decoder only answers well-formed operations. -/
def Obligations.DecodedInstructionsAreWellFormed : Prop :=
  ∀ (w : PortWord) (i : Instr), decode w = .ok i → i.wellFormed = true

/-- Words of the programs of spec/95_test_vectors.md (R92, R93, R99), and a word of the model's own port
for each micro-operation family, decode to the operation they stand for. That micro-operations have port
words, their selectors, and the reading of a PKE pattern that several rows share (0x243A is also the ack of
vector Q5) are the MODEL's choices, log 10 and log 11. -/
def Obligations.SpecProgramWordsDecode : Prop :=
  decode (.cmd 0x1200000000009600#64) = .ok (.configure 2#4 0#16 38400#32) ∧
  decode (.cmd 0x1100006400002580#64) = .ok (.configure 1#4 100#16 9600#32) ∧
  decode (.cmd 0x2000000000000000#64) = .ok .send ∧
  decode (.cmd 0x3000000000000000#64) = .ok .receive ∧
  decode (.cmd 0x4000043A00000010#64) = .ok (.setparamW 0#4 0x043A#16 16#16) ∧
  decode (.cmd 0x8100047E00000000#64) = .ok (.setCtl 1#4 0x047E#16) ∧
  decode (.cmd 0x9100000100000000#64) = .ok (.clrCtl 1#4 1#16) ∧
  decode (.cmd 0xA000000000000000#64) = .ok (.getActual 0#4) ∧
  decode (.cmd 0xB100010000000000#64) = .ok (.chkStatus 1#4 0x0100#16) ∧
  decode (.cmd 0x2001000000000000#64) = .error .reservedBits ∧
  decode (.pkw ⟨0x243A#16, 0#16, 0#16, 0x0010#16⟩ 0#16 0#16) = .ok (.reqW 0#4 0x043A#16 0x0010#16) ∧
  decode (.pkw ⟨0x72BC#16, 0#16, 0#16, 42#16⟩ 1#16 1#16)
    = .ok (.resolveCantExecute 1#4 0x2BC#12 0#16 42#16) ∧
  decode (.frame [0x02#8, 0x0E#8, 0x1F#8, 0x12#8, 0x34#8, 0x56#8, 0x78#8, 0x9A#8, 0xBC#8, 0xDE#8, 0xF0#8,
      0x0F#8, 0x1E#8, 0x2D#8, 0x3C#8, 0x13#8] 1#2)
    = .ok (.encode 0x1F#8 ⟨0x1234#16, 0x5678#16, 0x9ABC#16, 0xDEF0#16⟩ ⟨0x0F1E#16, 0x2D3C#16⟩) ∧
  ∀ sel : BitVec 2, 2#2 ≤ sel →
    let k1 := [0x02#8, 0x0E#8, 0x01#8, 0x24#8, 0x3A#8, 0#8, 0#8, 0#8, 0#8, 0#8, 0x10#8, 0xFA#8, 0x31#8, 0#8,
      0#8, 0xC8#8]
    decode (.frame k1 sel) = .ok (if sel = 2#2 then .decode k1 else .bcc k1 15)

/-! ## Steps -/

/-- A step of an idle sequencer runs the operation the head of the port decodes to, in the state in which
the command has left the port and its side inputs have been sampled (R63, R92, R95). A CMD word
with a legal opcode and `rsv != 0` is refused (R99, R226; D4). That the reason is then `ReservedBits` also
where the command itself would be refused is the MODEL's order, as is `IllegalOp` for an illegal opcode with
`rsv != 0`, which decodes to that illegal operation (log 12). With nothing at the port the block keeps its
state. The queue at the port and the step with an empty one are the MODEL's choices (log 9); so are the
words of the micro-operation port and the refusal `noMicroOp` of one that names no micro-operation, which
no CMD word raises (log 10). -/
def Obligations.StepRunsTheDecodedInstruction : Prop :=
  ∀ s : State, s.resetLine = false → s.seq = .idle →
    (s.port = [] → step s = .next s) ∧
    ∀ (e : PortEntry) (rest : List PortEntry), s.port = e :: rest →
      (∀ i : Instr, decode e.word = .ok i → i.wellFormed = true →
        step s = exec i { s with port := rest, cfgListPresent := e.listPresent, cfgAddr := e.addrs }) ∧
      (decode e.word = .error .reservedBits → step s = .refused .reservedBits) ∧
      (decode e.word = .error .noMicroOp → step s = .refused .noMicroOp)

/-- A step of a sequencer inside a `SEND` is that `SEND` sampling its gate again (R175; one sample a step
is the model's, log 1). -/
def Obligations.StepContinuesAWaitingSend : Prop :=
  ∀ s : State, s.Inv → s.resetLine = false → s.seq = .sendGate → step s = exec .send s

/-- A step of a sequencer inside a `SETPARAM_*` is a `SEND`; if that completes, a `RECEIVE`; then the
command answers the `RECEIVE`'s code if its slave is `Idle`, and goes on if it is not (R200, R204; log 1). -/
def Obligations.StepContinuesAWaitingSetparam : Prop :=
  ∀ (s t : State) (idx : BitVec 4), s.Inv → s.resetLine = false → s.seq = .paramGate idx →
    exec .send s = .next t →
    (t.windowOpen = false → step s = .next { t with seq := .paramGate idx }) ∧
    (t.windowOpen = true → ∃ (u : State) (rc : Code), exec .receive t = .next u ∧
      u.responses = s.responses ++ [⟨0#32, 0#16⟩, ⟨rc, 0#16⟩] ∧
      step s = .next (if (u.slave idx.toNat).pending
        then { u with seq := .paramGate idx, responses := s.responses }
        else { u with seq := .idle, responses := s.responses ++ [⟨rc, 0#16⟩] }))

/-- The reset input ends whatever runs and puts every piece of state that R43 gives a value at that value, under
the same valuation; it emits no event (R240; the values are decision D22). The `de` level and the two
buffers are left out, since R43 leaves them unspecified. That the line is low again, that the trace, the
responses and the result of a micro-operation are a new run's, and that what the host and the environment
still hold stays, are the MODEL's choices, log 20. -/
def Obligations.ResetInputRestoresResetState : Prop :=
  ∀ s : State, s.resetLine = true → ∃ t : State, step s = .next t ∧
    t.configured = false ∧ t.count = 0 ∧ (∀ i, t.addrAt i = 0#5) ∧ t.addr.length = s.cfg.maxSlaves ∧
    t.baud = 0#32 ∧ t.tChar = 0 ∧ t.period = 0 ∧ t.deMargin = 0 ∧
    t.cursor = 0 ∧ t.windowOpen = false ∧ t.nextSend = 0 ∧
    t.deMode = .unconfigured ∧ t.gateAbandoned = false ∧ t.seq = .idle ∧
    (∀ i, t.slave i = Slave.reset) ∧ t.slaves.length = s.cfg.maxSlaves ∧ t.cfg = s.cfg ∧
    t.resetLine = false ∧ t.trace = [] ∧ t.responses = [] ∧ t.mres = .none ∧
    t.port = s.port ∧ t.cfgListPresent = s.cfgListPresent ∧ t.cfgAddr = s.cfgAddr ∧
    t.nowIn = s.nowIn ∧ t.rxIn = s.rxIn ∧ t.draws = s.draws

/-- Every piece of state the spec gives a reset value has it, under every valuation (R43, all of whose
values are decision D22). -/
def Obligations.ResetLeavesTheTabulatedValues : Prop :=
  ∀ c : Config, let s := State.resetWith c
    s.configured = false ∧ s.count = 0 ∧ (∀ i, s.addrAt i = 0#5) ∧ s.baud = 0#32 ∧ s.tChar = 0 ∧
    s.period = 0 ∧ s.deMargin = 0 ∧ s.cursor = 0 ∧ s.windowOpen = false ∧ s.nextSend = 0 ∧
    s.deMode = .unconfigured ∧ s.gateAbandoned = false ∧ s.slaves.length = c.maxSlaves ∧
    s.addr.length = c.maxSlaves ∧ s.trace = [] ∧
    ∀ i, s.slave i = ⟨false, 0#16, 0#16, 0#16, 0#16, 0#16, 0#16, 0#16, 0#16⟩

/-- Every invariant below holds right after reset, under every valuation R10 allows, and the default
valuation is one. -/
def Obligations.ResetMeetsTheInvariants : Prop :=
  Config.default.Valid ∧ ∀ c : Config, c.Valid →
    (State.resetWith c).Inv ∧ (State.resetWith c).HostOnly ∧ (State.resetWith c).BusOrder ∧
      (State.resetWith c).PeriodOk

/-! ## Process Data Channel -/

/-- `SET_SETPOINT` completes in every state: in range it overwrites the setpoint, and nothing else changes. -/
def Obligations.SetSetpointOverwritesTheSetpoint : Prop :=
  ∀ (s : State) (idx : BitVec 4) (v : Word), s.Inv → ∃ t : State,
    exec (.setSetpoint idx v) s = .next t ∧
    OnlyRecord s t idx (fun r => { r with setpoint := v }) [⟨0#32, 0#16⟩]

/-- `SET_CTL` completes in every state: in range it ORs the mask into the control word, and nothing else
changes. -/
def Obligations.SetCtlOrsTheMask : Prop :=
  ∀ (s : State) (idx : BitVec 4) (mask : Word), s.Inv → ∃ t : State,
    exec (.setCtl idx mask) s = .next t ∧
    OnlyRecord s t idx (fun r => { r with ctl := r.ctl ||| mask }) [⟨0#32, 0#16⟩]

/-- `CLR_CTL` completes in every state: in range it clears the mask's bits of the control word, and nothing
else changes. -/
def Obligations.ClrCtlClearsTheMask : Prop :=
  ∀ (s : State) (idx : BitVec 4) (mask : Word), s.Inv → ∃ t : State,
    exec (.clrCtl idx mask) s = .next t ∧
    OnlyRecord s t idx (fun r => { r with ctl := r.ctl &&& ~~~mask }) [⟨0#32, 0#16⟩]

/-- `GET_ACTUAL` completes in every state: in range it answers the last actual value and changes nothing
else; out of range it answers code 0 with a value nothing determines, and changes nothing but the model's
count of draws (log 6). -/
def Obligations.GetActualAnswersTheLastValue : Prop :=
  ∀ (s : State) (idx : BitVec 4),
    (idx.toNat < s.count → exec (.getActual idx) s
      = .next { s with responses := s.responses ++ [⟨0#32, (s.slave idx.toNat).actual⟩] }) ∧
    (s.count ≤ idx.toNat → ∃ (v : Word) (d : Nat), exec (.getActual idx) s
      = .next { s with draws := d, responses := s.responses ++ [⟨0#32, v⟩] })

/-- `CHK_STATUS` completes in every state: in range it answers 1 exactly if the status word has a bit of the
mask (any bit: D21), else 0, and changes nothing else; out of range as `GET_ACTUAL` (D20, log 6). -/
def Obligations.ChkStatusTestsTheMask : Prop :=
  ∀ (s : State) (idx : BitVec 4) (mask : Word),
    (idx.toNat < s.count → ∃ v : Word, exec (.chkStatus idx mask) s
        = .next { s with responses := s.responses ++ [⟨0#32, v⟩] } ∧ (v = 0#16 ∨ v = 1#16) ∧
      (v = 1#16 ↔ ∃ k, k < 16 ∧ (s.slave idx.toNat).status.getLsbD k = true ∧ mask.getLsbD k = true)) ∧
    (s.count ≤ idx.toNat → ∃ (v : Word) (d : Nat), exec (.chkStatus idx mask) s
      = .next { s with draws := d, responses := s.responses ++ [⟨0#32, v⟩] })

/-- The five process-data commands complete in every state, in any phase, and touch neither the bus, the
cursor, the window, the gate, the line nor any pending bit (R156). -/
def Obligations.ProcessDataCommandsIgnoreThePhase : Prop :=
  ∀ (s : State) (idx : BitVec 4) (a : Word) (i : Instr), s.Inv →
    (i = .setSetpoint idx a ∨ i = .setCtl idx a ∨ i = .clrCtl idx a ∨ i = .getActual idx ∨
      i = .chkStatus idx a) →
    ∃ t : State, exec i s = .next t ∧ t.cursor = s.cursor ∧ t.windowOpen = s.windowOpen ∧
      t.nextSend = s.nextSend ∧ t.de = s.de ∧ t.trace = s.trace ∧
      (∀ k, (t.slave k).pending = (s.slave k).pending) ∧
      (s.count ≤ idx.toNat → t.slaves = s.slaves)

/-! ## Parameter Channel -/

/-- `REQ_W` on a configured slave completes: task `CHW_PWE`, the parameter number masked to 11 bits,
reserved 0, high word 0, the value in the low word, `Pending`; nothing else changes. -/
def Obligations.ReqWRecordsAWordRequest : Prop :=
  ∀ (s : State) (idx : BitVec 4) (param w : Word), s.Inv → idx.toNat < s.count → ∃ t : State,
    exec (.reqW idx param w) s = .next t ∧
    OnlyRecord s t idx (fun r => { r with
      pke := s.cfg.akChwPwe.setWidth 16 <<< 12 ||| param &&& 0x07FF#16
      ind := 0x0000#16, vhi := 0x0000#16, vlo := w, pending := true }) []

/-- `REQ_D` on a configured slave completes: task `CHD_PWE`, the value split into halves; nothing else
changes. -/
def Obligations.ReqDRecordsADoubleWordRequest : Prop :=
  ∀ (s : State) (idx : BitVec 4) (param : Word) (v : DWord), s.Inv → idx.toNat < s.count → ∃ t : State,
    exec (.reqD idx param v) s = .next t ∧
    OnlyRecord s t idx (fun r => { r with
      pke := s.cfg.akChdPwe.setWidth 16 <<< 12 ||| param &&& 0x07FF#16
      ind := 0x0000#16, vhi := v.extractLsb' 16 16, vlo := v.extractLsb' 0 16, pending := true }) []

/-- `REQ_F` is `REQ_D` on the bit pattern: the same completing effect, every pattern unchanged. -/
def Obligations.ReqFIsReqDOnTheBitPattern : Prop :=
  ∀ (s : State) (idx : BitVec 4) (param : Word) (f : DWord),
    exec (.reqF idx param f) s = exec (.reqD idx param f) s ∧
    (s.Inv → idx.toNat < s.count → ∃ t : State, exec (.reqF idx param f) s = .next t ∧
      (t.slave idx.toNat).vhi ++ (t.slave idx.toNat).vlo = f)

/-- A request micro-operation for a slave out of range completes and changes nothing: the MODEL's choice,
log 13. -/
def Obligations.RequestsOutOfRangeChangeNothing : Prop :=
  ∀ (s : State) (idx : BitVec 4) (param w : Word) (v : DWord), s.count ≤ idx.toNat →
    exec (.reqW idx param w) s = .next s ∧ exec (.reqD idx param v) s = .next s ∧
    exec (.reqF idx param v) s = .next s

/-- Each of the sixteen rows of `RESOLVE` completes in every state. Its result is -1 for `NO_RESP`, -2 for
`NO_RIGHTS`, for `CANT_EXECUTE` -3 or the error number zero-extended, else 0; the slave (if configured)
becomes `Idle` whatever the code, its request words stay, and nothing else changes (R134 for a `Pending`
slave in range; D18 is in the valuation's `errcode`). That it completes for a slave out of range and for an
`Idle` slave too, and what it does there, is the MODEL's choice, log 13; the field that keeps its result is
the model's, log 15. -/
def Obligations.ResolveMapsTheAckAndClearsTheRequest : Prop :=
  ∀ (s : State) (ack : BitVec 4) (row : BitVec 4 → BitVec 12 → Word → Word → Instr) (idx : BitVec 4)
    (low : BitVec 12) (vhi vlo : Word), s.Inv → (ack, row) ∈ resolveRows → ∃ (t : State) (rc : Code),
    exec (row idx low vhi vlo) s = .next t ∧ t.mres = .code rc ∧
    OnlyRecord { s with mres := .code rc } t idx (fun r => { r with pending := false }) [] ∧
    (ack = s.cfg.akNoResp → rc = 0xFFFFFFFF#32) ∧
    (ack = s.cfg.akNoRights → rc = 0xFFFFFFFE#32) ∧
    (ack = s.cfg.akCantExecute → s.cfg.errcode vhi vlo = 0#16 → rc = 0xFFFFFFFD#32) ∧
    (ack = s.cfg.akCantExecute → s.cfg.errcode vhi vlo ≠ 0#16 →
      rc = (s.cfg.errcode vhi vlo).setWidth 32) ∧
    (ack ≠ s.cfg.akNoResp → ack ≠ s.cfg.akNoRights → ack ≠ s.cfg.akCantExecute → rc = 0#32)

/-- `NO_TASK` completes in every state: it returns four zero PKW words and changes nothing else (R86; the
micro-operation's result field is the model's, log 15). -/
def Obligations.NoTaskReturnsFourZeroWords : Prop :=
  ∀ s : State, exec .noTask s = .next { s with mres := .words ⟨0#16, 0#16, 0#16, 0#16⟩ }

/-- The transitions of a Parameter Channel, complete (R133; the micro-operations' own are in the four
statements above). A request word changes only by a request for its slave. A slave becomes `Pending` only
by a request for it; and by an operation that is none for it, it becomes `Idle` only when a frame from it
is accepted while the cursor is on it: by `RECEIVE`, or by the `RECEIVE` inside a `SETPARAM_*` of another
slave. -/
def Obligations.ParameterChannelTransitions : Prop :=
  ∀ (s t : State) (i : Instr) (k : Nat), s.Inv → exec i s = .next t → i.requests k = false →
    (t.slave k).pke = (s.slave k).pke ∧ (t.slave k).ind = (s.slave k).ind ∧
    (t.slave k).vhi = (s.slave k).vhi ∧ (t.slave k).vlo = (s.slave k).vlo ∧
    ((s.slave k).pending = false → (t.slave k).pending = false) ∧
    ((s.slave k).pending = true → (t.slave k).pending = false →
      (i = .receive ∧ s.cursor = k ∧ FrameFrom s.cfg (s.addrAt k) s.rxBytes) ∨
      ((∃ idx pke vhi vlo, IsSetparam s.cfg i idx pke vhi vlo) ∧ s.wrapped = k ∧
        FrameFrom s.cfg (s.addrAt k) s.afterNow.afterNow.rxBytes))

/-- While a slave is `Pending` and no frame from it is accepted, its request stays as it is, and every
`SEND` that addresses it, alone or inside a `SETPARAM_*` of another slave or its own, carries the same four
words at offsets 3, 5, 7 and 9 (R137). Any other operations may come between, `SETPARAM_*` of other slaves
among them (R137; how a waiting command is cut into steps is log 1). -/
def Obligations.PendingRequestIsResentUnchanged : Prop :=
  ∀ (s u : State) (k : Nat), s.Inv → (s.slave k).pending = true → Unresolved k s u →
    (u.slave k).pending = true ∧ (u.slave k).pke = (s.slave k).pke ∧
    (u.slave k).ind = (s.slave k).ind ∧ (u.slave k).vhi = (s.slave k).vhi ∧
    (u.slave k).vlo = (s.slave k).vlo ∧
    ∀ v : State, SendsOnce k u v → u.wrapped = k →
      (¬ u.gateEnds → txWrites (v.trace.drop u.trace.length) = []) ∧
      (u.gateEnds → ∃ tele : List Byte, txWrites (v.trace.drop u.trace.length) = [tele] ∧
        frameWordAt tele 3 = (s.slave k).pke ∧ frameWordAt tele 5 = (s.slave k).ind ∧
        frameWordAt tele 7 = (s.slave k).vhi ∧ frameWordAt tele 9 = (s.slave k).vlo)

/-! ## Telegram Codec -/

/-- `BCC` completes in every state and changes nothing but the result it returns (log 15). The result is the
XOR of `buf[0]` to `buf[len-1]` from 0, so 0 for no byte and the same for the same bytes in another order;
and a 16-byte frame whose last byte is the BCC of the first 15 has XOR 0. Where `buf` has fewer than `len`
bytes the rule gives no value, and nothing is said of the result (the MODEL's free value, log 25). -/
def Obligations.BccIsTheXorOfTheRange : Prop :=
  ∀ (s : State) (buf : List Byte) (len : Nat), ∃ b : Byte,
    exec (.bcc buf len) s = .next { s with mres := .byte b } ∧
    (len ≤ buf.length → b = (List.range len).foldl (fun x k => x ^^^ buf.getD k 0#8) 0x00#8) ∧
    (len = 0 → b = 0x00#8) ∧
    (∀ buf' : List Byte, buf'.length = len → buf'.Perm (buf.take len) →
      exec (.bcc buf' len) s = .next { s with mres := .byte b }) ∧
    (buf.length = 16 → len = 15 → buf.getD 15 0#8 = b → xorOf buf = 0x00#8)

/-- `ENCODE` completes: it fills `TXBUF` with the 16 bytes of the telegram and returns them; nothing else
changes (that its buffer is `TXBUF` when it is issued by itself is log 10, its returned value log 15). -/
def Obligations.EncodeWritesTheTelegram : Prop :=
  ∀ (s : State) (address : Byte) (k : Pkw) (z : Pzd), s.Inv → ∃ t : State,
    exec (.encode address k z) s = .next t ∧
    t = { s with txbuf := t.txbuf, mres := .frame (telegram s.cfg.lge address k z) } ∧
    (telegram s.cfg.lge address k z).length = 16 ∧
    (∀ o, o < 16 → Memory.read t.txbuf o = (telegram s.cfg.lge address k z).getD o 0#8) ∧
    (∀ o, 16 ≤ o → Memory.read t.txbuf o = Memory.read s.txbuf o)

/-- `DECODE` completes on every byte sequence in every state and changes nothing but the result it returns
(log 15): the one error `Malformed` exactly if the length is not 16, or offset 0 is not `0x02`, or
`CHECK_LGE` is set and offset 1 is not `LGE`, or offset 15 is not the XOR of offsets 0 to 14. -/
def Obligations.DecodeFailsExactlyForTheListedCauses : Prop :=
  ∀ (s : State) (f : List Byte), ∃ r : DecodeResult,
    exec (.decode f) s = .next { s with mres := .decoded r } ∧
    (r = .malformed ↔
      f.length ≠ 16 ∨ f.getD 0 0#8 ≠ 0x02#8 ∨ (s.cfg.checkLge = true ∧ f.getD 1 0#8 ≠ s.cfg.lge) ∨
        f.getD 15 0#8 ≠ xorOf (f.take 15))

/-- On a frame that passes the checks `DECODE` answers the low 5 bits of offset 2 (D23), the four PKW words
and the two PZD words, each high byte first (R112). -/
def Obligations.DecodeExtractsTheFields : Prop :=
  ∀ (s : State) (f : List Byte), FrameOk s.cfg f →
    exec (.decode f) s = .next { s with mres := .decoded (.ok
      ⟨f.getD 2 0#8 &&& 0x1F#8,
       ⟨frameWordAt f 3, frameWordAt f 5, frameWordAt f 7, frameWordAt f 9⟩,
       ⟨frameWordAt f 11, frameWordAt f 13⟩⟩) }

/-- The round trip (R114). What `ENCODE` produced decodes to its operands, the address masked, for either
value of `CHECK_LGE`; and a frame that decodes is what `ENCODE` makes of the result exactly if its length
byte is `LGE` and bits 7:5 of its address byte are 0. The clause that `ENCODE` issued by itself leaves the
frame in `TXBUF` is the MODEL's choice, log 10, and the field that keeps a returned value is the model's,
log 15. -/
def Obligations.EncodeAndDecodeAgree : Prop :=
  ∀ s : State, s.Inv →
    (∀ (address : Byte) (k : Pkw) (z : Pzd) (t : State), exec (.encode address k z) s = .next t →
      ∃ f, t.mres = .frame f ∧ f = Memory.bytes t.txbuf 16 ∧
        exec (.decode f) t = .next { t with mres := .decoded (.ok ⟨address &&& 0x1F#8, k, z⟩) } ∧
        (address.toNat < 32 → address &&& 0x1F#8 = address)) ∧
    (∀ (f : List Byte) (t : State) (d : Telegram), exec (.decode f) s = .next t →
      t.mres = .decoded (.ok d) → ∀ u, exec (.encode d.address d.pkw d.pzd) s = .next u →
        (u.mres = .frame f ↔ f.getD 1 0#8 = s.cfg.lge ∧ (f.getD 2 0#8).extractLsb' 5 3 = 0#3))

/-- BCC sensitivity (R115). Changing one byte of an encoded frame, the BCC byte included, makes `DECODE`
fail; changing two bytes by the same difference does not, as long as offset 0 (and, under `CHECK_LGE`,
offset 1) stays. -/
def Obligations.OneChangedByteIsDetected : Prop :=
  ∀ (s : State) (address : Byte) (k : Pkw) (z : Pzd) (g : List Byte) (j : Nat), g.length = 16 →
    let f := telegram s.cfg.lge address k z
    ((∀ o, o ≠ j → g.getD o 0#8 = f.getD o 0#8) → g.getD j 0#8 ≠ f.getD j 0#8 →
      exec (.decode g) s = .next { s with mres := .decoded .malformed }) ∧
    (∀ m, m < 16 → j < 16 → m ≠ j → (∀ o, o ≠ j → o ≠ m → g.getD o 0#8 = f.getD o 0#8) →
      g.getD j 0#8 ^^^ f.getD j 0#8 = g.getD m 0#8 ^^^ f.getD m 0#8 →
      g.getD 0 0#8 = 0x02#8 → (s.cfg.checkLge = true → g.getD 1 0#8 = s.cfg.lge) →
      ∃ d, exec (.decode g) s = .next { s with mres := .decoded (.ok d) })

/-! ## CONFIGURE -/

/-- `CONFIGURE` of an unconfigured block with a list of 1 to `MAX_SLAVES` addresses and a nonzero baud rate
completes: the table, the timing registers by the formulas of R172 (D7, D8), the events `PinMode(output)`,
`DE(1)`, the pin at its asserted level, cursor, window and gate at 0, the response `(0, 0)`; no slave
record and nothing else changes (R170, R173). -/
def Obligations.ConfigureSetsUpTheBlock : Prop :=
  ∀ (s : State) (n : BitVec 4) (margin : Word) (baud : DWord),
    s.configured = false → baud ≠ 0#32 → s.cfgListPresent = true → n ≠ 0#4 →
    n.toNat ≤ s.cfg.maxSlaves → ∃ t : State, exec (.configure n margin baud) s = .next t ∧
      t = { s with
        configured := true, count := n.toNat, addr := t.addr, baud := baud, tChar := t.tChar
        period := 2 * 16 * t.tChar + s.cfg.startDelayChars * t.tChar + s.cfg.maxRespDelay
          + s.cfg.masterMargin
        deMargin := margin.toNat, cursor := 0, windowOpen := false, nextSend := 0
        deMode := .output, de := true, trace := s.trace ++ [.pinMode, .de true]
        responses := s.responses ++ [⟨0#32, 0#16⟩] } ∧
      t.tChar = s.cfg.charTime baud ∧
      (s.cfg.charTimes.lookup baud = none →
        t.tChar = (11 * s.cfg.ticksPerSecond + baud.toNat - 1) / baud.toNat) ∧
      (∀ k a, k < n.toNat → s.cfgAddr[k]? = some a → t.addrAt k = a) ∧
      (∀ k, n.toNat ≤ k → t.addrAt k = s.addrAt k) ∧
      t.pinLevel = some s.cfg.deAssertLevel

/-- A failing `CONFIGURE` reports one error, in the order null list, too many, none, with a nonzero code and
no other effect (R210 to R212, R221; D14). -/
def Obligations.ConfigureErrorsHaveNoEffect : Prop :=
  ∀ (s : State) (n : BitVec 4) (margin : Word) (baud : DWord), s.Inv →
    s.configured = false → baud ≠ 0#32 →
    (s.cfgListPresent = false → s.cfg.rcCfgNullList ≠ 0#32 ∧ exec (.configure n margin baud) s
      = .next { s with responses := s.responses ++ [⟨s.cfg.rcCfgNullList, 0#16⟩] }) ∧
    (s.cfgListPresent = true → s.cfg.maxSlaves < n.toNat → s.cfg.rcCfgTooMany ≠ 0#32 ∧
      exec (.configure n margin baud) s
        = .next { s with responses := s.responses ++ [⟨s.cfg.rcCfgTooMany, 0#16⟩] }) ∧
    (s.cfgListPresent = true → n = 0#4 → s.cfg.rcCfgEmpty ≠ 0#32 ∧
      exec (.configure n margin baud) s
        = .next { s with responses := s.responses ++ [⟨s.cfg.rcCfgEmpty, 0#16⟩] })

/-- `CONFIGURE` is refused on a configured block, and with baud rate 0 on one that is not, whatever its other
operands (R171, R172; D7, D14). -/
def Obligations.ConfigureRefusals : Prop :=
  ∀ (s : State) (n : BitVec 4) (margin : Word) (baud : DWord),
    (s.configured = true → exec (.configure n margin baud) s = .refused .reconfigure) ∧
    (s.configured = false → baud = 0#32 → exec (.configure n margin baud) s = .refused .baudZero)

/-! ## SEND and RECEIVE -/

/-- `SEND` in its phase, with a clock sample that ends its gate, completes: it wraps the cursor, writes the
telegram of the cursor's slave to `TXBUF` and to the transport, drives the line, re-arms the gate from a
second sample, opens the window and answers `(0, 0)`; `gate_abandoned` is set if the sample lies
`ANOMALY_BOUND` or more before `next_send`; nothing else changes (R174 to R178; D9, D10, D12). -/
def Obligations.SendTransmitsTheTelegram : Prop :=
  ∀ s : State, s.Inv → s.configured = true → s.windowOpen = false → s.gateEnds → ∃ t : State,
    exec .send s = .next t ∧
    t = { s with
      cursor := s.wrapped, windowOpen := true, de := false, seq := .idle, txbuf := t.txbuf
      nextSend := s.afterNow.nowValue + s.period
      gateAbandoned := s.gateAbandoned || decide (s.nowValue < s.nextSend)
      nowIn := s.nowIn.drop 2, draws := s.draws + (2 - s.nowIn.length)
      trace := s.trace ++ .now s.nowValue :: s.sendEvents (s.telegramTo s.wrapped) s.afterNow.nowValue
      responses := s.responses ++ [⟨0#32, 0#16⟩] } ∧
    (∀ o, o < 16 → Memory.read t.txbuf o = (s.telegramTo s.wrapped).getD o 0#8) ∧
    (∀ o, 16 ≤ o → Memory.read t.txbuf o = Memory.read s.txbuf o)

/-- A clock sample in case (c) of R175 leaves the block inside the `SEND`: the sample is the one event, and
nothing else happens (one sample a step is the model's, log 1). -/
def Obligations.SendWaitsInItsGate : Prop :=
  ∀ s : State, s.configured = true → s.windowOpen = false → ¬ s.gateEnds →
    s.nowValue < s.nextSend ∧ s.nextSend - s.nowValue < 10 * s.cfg.ticksPerSecond ∧
    exec .send s = .next { s with
      seq := .sendGate, nowIn := s.nowIn.drop 1, draws := s.draws + (1 - s.nowIn.length)
      trace := s.trace ++ [.now s.nowValue] }

/-- What a `SEND` selects and composes. With a cursor that has reached the slave count it goes to slave 0,
else to the cursor's slave, and that is its only write to the cursor. The one telegram it writes carries
the slave's request words if it is `Pending`, else four zero words, and the slave's control word and
setpoint, all as they stand at this step. It writes no slave record. A `SEND` still in its gate selects
and writes nothing. -/
def Obligations.SendSelectsAndComposes : Prop :=
  ∀ s t : State, s.Inv → exec .send s = .next t →
    t.slaves = s.slaves ∧
    (t.windowOpen = false → t.cursor = s.cursor ∧ txWrites (t.trace.drop s.trace.length) = []) ∧
    (t.windowOpen = true →
      (s.cursor = s.count → t.cursor = 0) ∧ (s.cursor ≠ s.count → t.cursor = s.cursor) ∧
      ∃ tele : List Byte, txWrites (t.trace.drop s.trace.length) = [tele] ∧ tele.length = 16 ∧
        ((s.slave t.cursor).pending = true →
          frameWordAt tele 3 = (s.slave t.cursor).pke ∧ frameWordAt tele 5 = (s.slave t.cursor).ind ∧
          frameWordAt tele 7 = (s.slave t.cursor).vhi ∧ frameWordAt tele 9 = (s.slave t.cursor).vlo) ∧
        ((s.slave t.cursor).pending = false →
          frameWordAt tele 3 = 0#16 ∧ frameWordAt tele 5 = 0#16 ∧
          frameWordAt tele 7 = 0#16 ∧ frameWordAt tele 9 = 0#16) ∧
        frameWordAt tele 11 = (s.slave t.cursor).ctl ∧ frameWordAt tele 13 = (s.slave t.cursor).setpoint)

/-- `RECEIVE` with the window open always completes, and whatever arrives it reads once, re-asserts the
line, moves the cursor on by one and closes the window; it writes the bytes that arrived to `RXBUF` and
answers one code with value 0. It changes at most the record of the cursor's slave (R179, R182). -/
def Obligations.ReceiveAlwaysCompletes : Prop :=
  ∀ s : State, s.Inv → s.windowOpen = true → ∃ (t : State) (rc : Code), exec .receive s = .next t ∧
    t = { s with
      slaves := t.slaves, cursor := s.cursor + 1, windowOpen := false, de := true, rxbuf := t.rxbuf
      rxIn := s.rxIn.drop 1, draws := s.draws + (1 - s.rxIn.length)
      trace := s.trace ++ [.rxRead s.rxBytes, .de true]
      responses := s.responses ++ [⟨rc, 0#16⟩] } ∧
    s.rxBytes.length ≤ 16 ∧ t.slaves.length = s.slaves.length ∧
    (∀ i, i ≠ s.cursor → t.slave i = s.slave i) ∧
    (∀ o, Memory.read t.rxbuf o =
      if o < s.rxBytes.length then s.rxBytes.getD o 0#8 else Memory.read s.rxbuf o)

/-- A frame that passes every check and comes from the cursor's slave is accepted: both PZD words are stored
and the slave becomes `Idle`, its other fields stay. If it was `Pending` the answer is -1 for the ack code
`NO_RESP`, -2 for `NO_RIGHTS`, -3 for `CANT_EXECUTE` with error number 0, and the error number
zero-extended for `CANT_EXECUTE` with another. -/
def Obligations.AcknowledgmentOutcomesOfReceive : Prop :=
  ∀ s : State, s.Inv → s.windowOpen = true → FrameFrom s.cfg (s.addrAt s.cursor) s.rxBytes →
    ∃ (t : State) (rc : Code), exec .receive s = .next t ∧
      t.responses = s.responses ++ [⟨rc, 0#16⟩] ∧
      t.slave s.cursor = { s.slave s.cursor with
        status := frameWordAt s.rxBytes 11, actual := frameWordAt s.rxBytes 13, pending := false } ∧
      ((s.slave s.cursor).pending = true →
        let ack : BitVec 4 := (frameWordAt s.rxBytes 3).extractLsb' 12 4
        let c := s.cfg.errcode (frameWordAt s.rxBytes 7) (frameWordAt s.rxBytes 9)
        (ack = s.cfg.akNoResp → rc = 0xFFFFFFFF#32) ∧
        (ack = s.cfg.akNoRights → rc = 0xFFFFFFFE#32) ∧
        (ack = s.cfg.akCantExecute → c = 0#16 → rc = 0xFFFFFFFD#32) ∧
        (ack = s.cfg.akCantExecute → c ≠ 0#16 → rc = c.setWidth 32))

/-- The two remaining results of an accepted frame: 0 for any other ack code of a `Pending` slave (R134), and
0 for an `Idle` slave, whose PKW words are ignored (D16). -/
def Obligations.AcceptedFrameIsOtherwiseSuccess : Prop :=
  ∀ s t : State, s.Inv → exec .receive s = .next t →
    FrameFrom s.cfg (s.addrAt s.cursor) s.rxBytes →
    ((s.slave s.cursor).pending = false ∨
      ((frameWordAt s.rxBytes 3).extractLsb' 12 4 ≠ s.cfg.akNoResp ∧
       (frameWordAt s.rxBytes 3).extractLsb' 12 4 ≠ s.cfg.akNoRights ∧
       (frameWordAt s.rxBytes 3).extractLsb' 12 4 ≠ s.cfg.akCantExecute)) →
    t.responses = s.responses ++ [⟨0#32, 0#16⟩]

/-- Anything else is rejected: the one code `RC_COMM_FAIL` whatever the cause, and no field of any slave
record changes, so a pending request stays (R181, R213; D17, D24). -/
def Obligations.RejectedFrameChangesNoRecord : Prop :=
  ∀ s : State, s.Inv → s.windowOpen = true → ¬ FrameFrom s.cfg (s.addrAt s.cursor) s.rxBytes →
    ∃ t : State, exec .receive s = .next t ∧ t.slaves = s.slaves ∧
      t.responses = s.responses ++ [⟨s.cfg.rcCommFail, 0#16⟩]

/-- The bus commands are refused exactly in the wrong phase: `SEND` before `CONFIGURE` or with the window
open, `RECEIVE` before `CONFIGURE` or with it closed, and a `SETPARAM_*` with an index in range while the
window is open, before it records anything (R226, R205; D13). -/
def Obligations.BusCommandsAreRefusedOutOfPhase : Prop :=
  ∀ s : State,
    (exec .send s = .refused .phase ↔ s.configured = false ∨ s.windowOpen = true) ∧
    (exec .receive s = .refused .phase ↔ s.configured = false ∨ s.windowOpen = false) ∧
    ∀ (i : Instr) (idx : BitVec 4) (pke vhi vlo : Word), s.Inv →
      IsSetparam s.cfg i idx pke vhi vlo →
      (exec i s = .refused .phase ↔ idx.toNat < s.count ∧ s.windowOpen = true)

/-- The per-slave record persists. `ctl` changes only by `SET_CTL` and `CLR_CTL` of the slave, `setpoint`
only by `SET_SETPOINT` of it, the request words only by a request for it, `status` and `actual` only by
`RECEIVE` (alone or inside a `SETPARAM_*`) while the cursor is on it, and `pending` only by these two and
`RESOLVE`. `SEND` changes no field of any record, and `RECEIVE` no field but `status`, `actual` and
`pending` of the cursor's slave. -/
def Obligations.RecordsPersist : Prop :=
  ∀ (s t : State) (i : Instr) (k : Nat), s.Inv → exec i s = .next t →
    ((∀ idx m, idx.toNat = k → i ≠ .setCtl idx m ∧ i ≠ .clrCtl idx m) →
      (t.slave k).ctl = (s.slave k).ctl) ∧
    ((∀ idx v, idx.toNat = k → i ≠ .setSetpoint idx v) →
      (t.slave k).setpoint = (s.slave k).setpoint) ∧
    ((∀ idx p w v, idx.toNat = k → i ≠ .reqW idx p w ∧ i ≠ .reqD idx p v ∧ i ≠ .reqF idx p v) →
      (∀ idx pke vhi vlo, IsSetparam s.cfg i idx pke vhi vlo → idx.toNat ≠ k) →
      (t.slave k).pke = (s.slave k).pke ∧ (t.slave k).ind = (s.slave k).ind ∧
      (t.slave k).vhi = (s.slave k).vhi ∧ (t.slave k).vlo = (s.slave k).vlo) ∧
    (¬ (i = .receive ∧ s.cursor = k) →
      ¬ ((∃ idx pke vhi vlo, IsSetparam s.cfg i idx pke vhi vlo) ∧ s.wrapped = k) →
      (t.slave k).status = (s.slave k).status ∧ (t.slave k).actual = (s.slave k).actual ∧
      (i.requests k = false → (t.slave k).pending = (s.slave k).pending)) ∧
    (i = .send → t.slave k = s.slave k) ∧
    (i = .receive → k ≠ s.cursor → t.slave k = s.slave k) ∧
    (i = .receive → t.slave k = { s.slave k with
      status := (t.slave k).status, actual := (t.slave k).actual, pending := (t.slave k).pending })

/-- `status` and `actual` hold the PZD words of the last accepted frame from the slave: a `RECEIVE` that
completes sets them to words 11 and 13 of a frame it accepts from the cursor's slave, and leaves them as
they were for every other slave and for every frame it rejects. -/
def Obligations.StatusAndActualAreOfTheLastAcceptedFrame : Prop :=
  ∀ (s : State) (k : Nat), s.Inv → s.windowOpen = true → ∃ t : State, exec .receive s = .next t ∧
    (k = s.cursor → FrameFrom s.cfg (s.addrAt k) s.rxBytes →
      (t.slave k).status = frameWordAt s.rxBytes 11 ∧ (t.slave k).actual = frameWordAt s.rxBytes 13) ∧
    (k ≠ s.cursor ∨ ¬ FrameFrom s.cfg (s.addrAt s.cursor) s.rxBytes →
      (t.slave k).status = (s.slave k).status ∧ (t.slave k).actual = (s.slave k).actual)

/-! ## SETPARAM -/

/-- A `SETPARAM_*` with an index in range, in the phase of a `SEND`, records its request over whatever the
slave's record held and then does what the block inside a `SETPARAM_*` does at each step (R200 to R202,
R133; the steps are log 1). -/
def Obligations.SetparamRecordsThenScans : Prop :=
  ∀ (s r : State) (i : Instr) (idx : BitVec 4) (pke vhi vlo : Word), s.Inv →
    IsSetparam s.cfg i idx pke vhi vlo → idx.toNat < s.count → s.windowOpen = false →
    s.resetLine = false →
    OnlyRecord s r idx
      (fun q => { q with pke := pke, ind := 0#16, vhi := vhi, vlo := vlo, pending := true }) [] →
    exec i s = step { r with seq := .paramGate idx }

/-- A `SETPARAM_*` whose slave's turn it is, whose gate ends and whose slave answers with an accepted frame
completes in one scan: the telegram carries the request, the frame's PZD words are stored, the slave is
`Idle`, and the answer is the frame's acknowledgment (R200 to R202, R204; log 1). -/
def Obligations.SetparamCompletesInOneScan : Prop :=
  ∀ (s : State) (i : Instr) (idx : BitVec 4) (pke vhi vlo : Word), s.Inv →
    IsSetparam s.cfg i idx pke vhi vlo → idx.toNat < s.count → s.windowOpen = false →
    s.wrapped = idx.toNat → s.gateEnds →
    let f := s.afterNow.afterNow.rxBytes
    let q := s.slave idx.toNat
    let tele := telegram s.cfg.lge ((s.addrAt idx.toNat).setWidth 8) ⟨pke, 0#16, vhi, vlo⟩
      ⟨q.ctl, q.setpoint⟩
    FrameFrom s.cfg (s.addrAt idx.toNat) f → ∃ t : State, exec i s = .next t ∧
      t = { s with
        slaves := t.slaves, cursor := idx.toNat + 1, windowOpen := false, de := true, seq := .idle
        txbuf := t.txbuf, rxbuf := t.rxbuf, nextSend := s.afterNow.nowValue + s.period
        gateAbandoned := s.gateAbandoned || decide (s.nowValue < s.nextSend)
        nowIn := s.nowIn.drop 2, rxIn := s.rxIn.drop 1
        draws := s.draws + (2 - s.nowIn.length) + (1 - s.rxIn.length)
        trace := s.trace ++ .now s.nowValue :: s.sendEvents tele s.afterNow.nowValue
          ++ [.rxRead f, .de true]
        responses := s.responses ++ [⟨ackCodeOf s.cfg f, 0#16⟩] } ∧
      (∀ k, t.slave k = if k = idx.toNat
        then ⟨false, pke, 0#16, vhi, vlo, q.ctl, q.setpoint, frameWordAt f 11, frameWordAt f 13⟩
        else s.slave k) ∧
      (∀ o, o < 16 → Memory.read t.txbuf o = tele.getD o 0#8 ∧ Memory.read t.rxbuf o = f.getD o 0#8)

/-- A `SETPARAM_*` with an index out of range completes, in either phase and before `CONFIGURE`, as a silent
no-op: it answers a code nothing determines with value 0 and changes nothing but the model's count of
draws (R203, D20; log 6). -/
def Obligations.SetparamOutOfRangeIsANoOp : Prop :=
  ∀ (s : State) (i : Instr) (idx : BitVec 4) (pke vhi vlo : Word),
    IsSetparam s.cfg i idx pke vhi vlo → s.count ≤ idx.toNat → ∃ (c : Code) (d : Nat),
      exec i s = .next { s with draws := d, responses := s.responses ++ [⟨c, 0#16⟩] }

/-- `SETPARAM_F` is `SETPARAM_D` with the same operands, in every state (R202). -/
def Obligations.SetparamFIsSetparamD : Prop :=
  ∀ (s : State) (idx : BitVec 4) (param : Word) (v : DWord),
    exec (.setparamF idx param v) s = exec (.setparamD idx param v) s

/-! ## Illegal words -/

/-- The five illegal opcodes are refused `IllegalOp` in every state, whatever their other bits (R99, R226;
D4; before any look at `rsv`: log 12). -/
def Obligations.IllegalOpcodesAreRefused : Prop :=
  ∀ (s : State) (rest : BitVec 60),
    exec (.illegalOp0 rest) s = .refused .illegalOp ∧ exec (.illegalOpC rest) s = .refused .illegalOp ∧
    exec (.illegalOpD rest) s = .refused .illegalOp ∧ exec (.illegalOpE rest) s = .refused .illegalOp ∧
    exec (.illegalOpF rest) s = .refused .illegalOp

/-- Every CMD word that is no legal command is refused by the step that would accept it: by opcode, or for
`rsv` bits that are not 0 (R92, R99, R226; D4). The order of the two, and of `ReservedBits` before
the reasons of the command itself, is the MODEL's choice, log 12. A legal command is never
refused for its word. -/
def Obligations.IllegalCommandWordsAreRefused : Prop :=
  ∀ (s : State) (w : BitVec 64) (e : PortEntry) (rest : List PortEntry), s.resetLine = false →
    s.seq = .idle → s.port = e :: rest → e.word = .cmd w →
    let op := w.toNat / 2 ^ 60
    let rsv := w.toNat / 2 ^ 48 % 2 ^ 8
    ((op = 0 ∨ 12 ≤ op) → step s = .refused .illegalOp) ∧
    (1 ≤ op → op ≤ 11 → rsv ≠ 0 → step s = .refused .reservedBits) ∧
    (1 ≤ op → op ≤ 11 → rsv = 0 → step s ≠ .refused .illegalOp ∧ step s ≠ .refused .reservedBits)

/-! ## Invariants and whole-run rules -/

/-- The invariant of R42 is kept by every step, from every state that has it. -/
def Obligations.StepKeepsTheInvariant : Prop :=
  ∀ s t : State, s.Inv → step s = .next t → t.Inv

/-- With host commands only, the only pending request is the one the `SETPARAM_*` being executed waits for;
so at most one slave is `Pending`, and none between commands (R251). Every step keeps this. -/
def Obligations.StepKeepsOneRequestAtATime : Prop :=
  ∀ s t : State, s.Inv → s.HostOnly → step s = .next t →
    t.HostOnly ∧ (∀ i j, (t.slave i).pending = true → (t.slave j).pending = true → i = j) ∧
    (t.seq = .idle → ∀ i, (t.slave i).pending = false)

/-- The interface events keep their one order: after `PinMode`, `DE(1)`, each scan is gate samples,
`TxWrite` of 16 bytes, `DE(1)`, `Delay`, `DE(0)`, `Now`, then one `RxRead` of at most 16 bytes and `DE(1)`
(R64, R173, R177, R182, R185, R186). Every step keeps this. -/
def Obligations.StepKeepsTheEventOrder : Prop :=
  ∀ s t : State, s.Inv → s.BusOrder → step s = .next t → t.BusOrder

/-- The minimum period. Every `TxWrite` of the trace follows a gate sample of its own. That sample lies at
or after the re-arming sample of the telegram before it plus the period, unless it ended its gate by case
(b): then it lies `ANOMALY_BOUND` or more before that time. `gate_abandoned` is set exactly if one of the
trace did (R184, for each pair of consecutive `SEND`s; R38, D9). Every step keeps this. -/
def Obligations.StepKeepsTheMinimumPeriod : Prop :=
  ∀ s t : State, s.Inv → s.PeriodOk → step s = .next t → t.PeriodOk

/-- From a state with the invariant a step never faults, and it is refused only when an idle block has a
word at its port: inside a `SEND` or a `SETPARAM_*`, under reset, and with nothing at the port, it always
has a next state. -/
def Obligations.StepNeverFaults : Prop :=
  ∀ s : State, s.Inv →
    (∃ t, step s = .next t) ∨
    (∃ r, step s = .refused r ∧ s.resetLine = false ∧ s.seq = .idle ∧ s.port ≠ [])

/-- After `CONFIGURE` the configuration never changes and `gate_abandoned` never clears, except by the reset
input; and no step changes the valuation of the parameters (R29, R31, R38; R9). -/
def Obligations.ConfigurationIsImmutable : Prop :=
  ∀ s t : State, step s = .next t →
    t.cfg = s.cfg ∧
    (s.resetLine = false → s.gateAbandoned = true → t.gateAbandoned = true) ∧
    (s.resetLine = false → s.configured = true → t.configured = true ∧ t.count = s.count ∧
      t.addr = s.addr ∧ t.baud = s.baud ∧ t.tChar = s.tChar ∧ t.period = s.period ∧
      t.deMargin = s.deMargin ∧ t.deMode = s.deMode)

/-- A host command that completes delivers exactly one response, whose value is 0 unless the command is
`GET_ACTUAL` or `CHK_STATUS`; one that has not completed has delivered none, and the block is inside it
(R94, D4; log 1). Micro-operations deliver none (log 15). -/
def Obligations.OneResponsePerCommand : Prop :=
  ∀ (s t : State) (w : BitVec 64) (i : Instr), s.seq = .idle → exec i s = .next t →
    (decode (.cmd w) = .ok i →
      (t.seq = .idle ∧ ∃ c v, t.responses = s.responses ++ [⟨c, v⟩] ∧
        ((∀ idx m, i ≠ .getActual idx ∧ i ≠ .chkStatus idx m) → v = 0#16)) ∨
      (t.seq ≠ .idle ∧ t.responses = s.responses)) ∧
    ((∀ w', decode (.cmd w') ≠ .ok i) → t.responses = s.responses ∧ t.seq = .idle)

/-- Round-robin coverage (R183). From a configured block with the window closed, the `k`-th `SEND` that
completes goes to slave `(c0 + k) mod count`, whether frames are accepted or rejected and whatever other
operations are interleaved. -/
def Obligations.RoundRobinCoverage : Prop :=
  ∀ (s u : State) (l : List Nat), s.Inv → s.configured = true → s.windowOpen = false → BusRun s l u →
    l = (List.range l.length).map fun k => (s.cursor % s.count + k) % s.count

/-- Where a `SETPARAM_*` ends (R204 (3), (5); D9; log 1). If every gate ends at its first sample and every
slave answers its turn with an accepted frame, then after `((idx - c0) mod count) + 1` scans, and not
before, the command has ended: the slave is `Idle` and the one response is the acknowledgment of its
frame. -/
def Obligations.SetparamEndsAtItsTurn : Prop :=
  ∀ (s : State) (idx : BitVec 4), s.Inv → s.resetLine = false → s.seq = .paramGate idx →
    let n := (idx.toNat + s.count - s.cursor % s.count) % s.count
    (∀ (m : Nat) (u : State), m ≤ n → Host.Core.run Sys2Proof.core m s = .next u →
      u.gateEnds ∧ FrameFrom u.cfg (u.addrAt u.wrapped) u.afterNow.afterNow.rxBytes) →
    (∀ (m : Nat), m ≤ n → ∃ u : State, Host.Core.run Sys2Proof.core m s = .next u ∧
      u.seq = .paramGate idx ∧ u.responses = s.responses) ∧
    ∃ u t : State, Host.Core.run Sys2Proof.core n s = .next u ∧ u.wrapped = idx.toNat ∧
      Host.Core.run Sys2Proof.core (n + 1) s = .next t ∧ t.seq = .idle ∧
      (t.slave idx.toNat).pending = false ∧
      t.responses = s.responses ++ [⟨ackCodeOf s.cfg u.afterNow.afterNow.rxBytes, 0#16⟩]

/-! ## Frame buffers -/

/-- A byte written to a frame buffer is read back and every other byte is as before; a write keeps the
canonical form; and two buffers in canonical form that read alike are the same data (R39, R50; log 8). -/
def Obligations.FrameBuffersReadWhatWasWritten : Prop :=
  ∀ m : Memory, Memory.wf m = true →
    (∀ (a o : Nat) (b : Byte), a < 16 → Memory.wf (Memory.write m a b) = true ∧
      Memory.read (Memory.write m a b) o = if o = a then b else Memory.read m o) ∧
    (∀ m' : Memory, Memory.wf m' = true → (∀ o, o < 16 → Memory.read m o = Memory.read m' o) → m = m')
end

