-- ==== Sys2Proof/Laws/Encoding.lean ====
section
/-! SUPPORT. Bit fields: what each field of an assembled CMD, PKE or wire word reads back as. -/

namespace Sys2Proof

variable (op idx : BitVec 4) (a16 : Word) (v32 : DWord) (rest : BitVec 60)

@[simp] theorem cmdOp_mkCmd : cmdOp (mkCmd op idx a16 v32) = op := by
  ext i hi
  simp only [cmdOp, mkCmd, BitVec.getElem_extractLsb', BitVec.getLsbD_append]
  rw [if_neg (by omega), if_neg (by omega), if_neg (by omega), if_neg (by omega),
    ← BitVec.getLsbD_eq_getElem]
  congr 1; omega

@[simp] theorem cmdIdx_mkCmd : cmdIdx (mkCmd op idx a16 v32) = idx := by
  ext i hi
  simp only [cmdIdx, mkCmd, BitVec.getElem_extractLsb', BitVec.getLsbD_append]
  rw [if_neg (by omega), if_neg (by omega), if_neg (by omega), if_pos (by omega),
    ← BitVec.getLsbD_eq_getElem]
  congr 1; omega

@[simp] theorem cmdRsv_mkCmd : cmdRsv (mkCmd op idx a16 v32) = 0#8 := by
  ext i hi
  simp only [cmdRsv, mkCmd, BitVec.getElem_extractLsb', BitVec.getLsbD_append]
  rw [if_neg (by omega), if_neg (by omega), if_pos (by omega)]
  simp

@[simp] theorem cmdA16_mkCmd : cmdA16 (mkCmd op idx a16 v32) = a16 := by
  ext i hi
  simp only [cmdA16, mkCmd, BitVec.getElem_extractLsb', BitVec.getLsbD_append]
  rw [if_neg (by omega), if_pos (by omega), ← BitVec.getLsbD_eq_getElem]
  congr 1; omega

@[simp] theorem cmdV32_mkCmd : cmdV32 (mkCmd op idx a16 v32) = v32 := by
  ext i hi
  simp only [cmdV32, mkCmd, BitVec.getElem_extractLsb', BitVec.getLsbD_append]
  rw [if_pos (by omega), ← BitVec.getLsbD_eq_getElem]
  congr 1; omega

@[simp] theorem cmdOp_mkIllegal : cmdOp (mkIllegal op rest) = op := by
  ext i hi
  simp only [cmdOp, mkIllegal, BitVec.getElem_extractLsb', BitVec.getLsbD_append]
  rw [if_neg (by omega), ← BitVec.getLsbD_eq_getElem]
  congr 1; omega

@[simp] theorem cmdRest_mkIllegal : cmdRest (mkIllegal op rest) = rest := by
  ext i hi
  simp only [cmdRest, mkIllegal, BitVec.getElem_extractLsb', BitVec.getLsbD_append]
  rw [if_pos (by omega), ← BitVec.getLsbD_eq_getElem]
  congr 1; omega

/-- The low half of a word operand (R97). -/
@[simp] theorem lowHalf_append (h l : Word) : (h ++ l : DWord).extractLsb' 0 16 = l := by
  ext i hi
  simp only [BitVec.getElem_extractLsb', BitVec.getLsbD_append]
  rw [if_pos (by omega), ← BitVec.getLsbD_eq_getElem]
  congr 1; omega

@[simp] theorem highHalf_append (h l : Word) : (h ++ l : DWord).extractLsb' 16 16 = h := by
  ext i hi
  simp only [BitVec.getElem_extractLsb', BitVec.getLsbD_append]
  rw [if_neg (by omega), ← BitVec.getLsbD_eq_getElem]
  congr 1; omega

/-- Splitting a value is exact (R13 (4)). -/
@[simp] theorem halves_append (v : DWord) :
    (v.extractLsb' 16 16 ++ v.extractLsb' 0 16 : DWord) = v := by
  ext i hi
  simp only [BitVec.getElem_append, BitVec.getElem_extractLsb']
  split
  · rw [← BitVec.getLsbD_eq_getElem]; congr 1; omega
  · rw [← BitVec.getLsbD_eq_getElem]; congr 1; omega

/-- Splitting a word into bytes is exact (R13 (4)). -/
@[simp] theorem bytes_append (w : Word) :
    (w.extractLsb' 8 8 ++ w.extractLsb' 0 8 : Word) = w := by
  ext i hi
  simp only [BitVec.getElem_append, BitVec.getElem_extractLsb']
  split
  · rw [← BitVec.getLsbD_eq_getElem]; congr 1; omega
  · rw [← BitVec.getLsbD_eq_getElem]; congr 1; omega

@[simp] theorem nibble_append (ak : BitVec 4) (low : BitVec 12) :
    (ak ++ low : Word).extractLsb' 12 4 = ak := by
  ext i hi
  simp only [BitVec.getElem_extractLsb', BitVec.getLsbD_append]
  rw [if_neg (by omega), ← BitVec.getLsbD_eq_getElem]
  congr 1; omega

@[simp] theorem low12_append (ak : BitVec 4) (low : BitVec 12) :
    (ak ++ low : Word).extractLsb' 0 12 = low := by
  ext i hi
  simp only [BitVec.getElem_extractLsb', BitVec.getLsbD_append]
  rw [if_pos (by omega), ← BitVec.getLsbD_eq_getElem]
  congr 1; omega

/-- A parameter number that an encoding carries has bits 15:11 zero. -/
theorem pnu_high_bits {param : Word} (h : param &&& abovePnu = 0#16) {i : Nat} (hi : i < 16)
    (h11 : 11 ≤ i) : param.getLsbD i = false := by
  have hb := congrArg (fun x : Word => x.getLsbD i) h
  have : i = 11 ∨ i = 12 ∨ i = 13 ∨ i = 14 ∨ i = 15 := by omega
  rcases this with rfl | rfl | rfl | rfl | rfl <;> simpa [abovePnu] using hb

/-- The PKE of a request: the row's AK and a zero bit 11 above the parameter number (R85). -/
theorem request_top {param : Word} (ak : BitVec 4) (h : param &&& abovePnu = 0#16) :
    (ak ++ param.extractLsb' 0 12 : Word).extractLsb' 11 5 = (ak ++ 0#1 : BitVec 5) := by
  apply BitVec.eq_of_getLsbD_eq
  intro i hi
  simp only [BitVec.getLsbD_extractLsb', BitVec.getLsbD_append]
  by_cases h0 : i = 0
  · subst h0
    simpa using pnu_high_bits h (i := 11) (by omega) (by omega)
  · rw [if_neg (by omega), if_neg (by omega)]
    simp only [hi, decide_true, Bool.true_and]
    congr 1; omega

theorem request_pnu {param : Word} (ak : BitVec 4) (h : param &&& abovePnu = 0#16) :
    pnuField (ak ++ param.extractLsb' 0 12 : Word) = param := by
  ext i hi
  simp only [pnuField, BitVec.getElem_and, BitVec.getElem_append, BitVec.getElem_extractLsb']
  by_cases h11 : 11 ≤ i
  · rw [← BitVec.getLsbD_eq_getElem (x := param), pnu_high_bits h hi h11]
    have : i = 11 ∨ i = 12 ∨ i = 13 ∨ i = 14 ∨ i = 15 := by omega
    rcases this with rfl | rfl | rfl | rfl | rfl <;> simp
  · rw [dif_pos (by omega)]
    have : i = 0 ∨ i = 1 ∨ i = 2 ∨ i = 3 ∨ i = 4 ∨ i = 5 ∨ i = 6 ∨ i = 7 ∨ i = 8 ∨ i = 9 ∨ i = 10 := by
      omega
    rcases this with rfl | rfl | rfl | rfl | rfl | rfl | rfl | rfl | rfl | rfl | rfl <;> simp

@[simp] theorem index_setWidth (idx : BitVec 4) : (idx.setWidth 16 : Word).extractLsb' 0 4 = idx := by
  ext i hi
  simp [show i < 16 by omega, BitVec.getLsbD_eq_getElem hi]

theorem index_small (idx : BitVec 4) : (idx.setWidth 16 : Word).toNat < 16 := by
  simp only [BitVec.toNat_setWidth]; omega

end Sys2Proof

namespace Sys2Proof.Machine

/-- A bus address operand reads back whole: 5 bits under an 8-bit zero extension (R177). -/
@[simp] theorem maskAddr_busAddress (a : BitVec 5) : maskAddr (busAddress a) = busAddress a := by
  revert a; decide

theorem maskAddr_idem (a : Byte) : maskAddr (maskAddr a) = maskAddr a := by
  simp [maskAddr, BitVec.and_assoc]

/-- `be16(hi8(w), lo8(w)) = w` (R13 (4)). -/
@[simp] theorem be16_hi8_lo8 (w : Word) : be16 (hi8 w) (lo8 w) = w := bytes_append w

/-- The AK field of an assembled PKE (R96). -/
@[simp] theorem akOf_pkeOf (ak : BitVec 4) (param : Word) : akOf (pkeOf ak param) = ak := by
  ext i hi
  have : i = 0 ∨ i = 1 ∨ i = 2 ∨ i = 3 := by omega
  rcases this with rfl | rfl | rfl | rfl <;> simp [akOf, pkeOf, maskPnu]

/-- Bit 11 of an assembled PKE is 0 (R85). -/
@[simp] theorem bit11_pkeOf (ak : BitVec 4) (param : Word) :
    (pkeOf ak param).extractLsb' 11 1 = 0#1 := by
  ext i hi
  have : i = 0 := by omega
  subst this
  simp [pkeOf, maskPnu]

end Sys2Proof.Machine
end

