-- ==== Sys2Proof/Laws/Memory.lean ====
section
/-! SUPPORT. The frame buffers: every write keeps the canonical form, a byte just written is read back
and every other byte is as before, and the bytes of a buffer written in full are the bytes written. -/

namespace Sys2Proof.Machine

theorem Memory.sortedFrom_mono {lo lo' hi : Nat} {m : Memory} (h : Memory.sortedFrom lo hi m = true)
    (hl : lo' ≤ lo) : Memory.sortedFrom lo' hi m = true := by
  cases m with
  | nil => rfl
  | cons p r =>
    simp only [Memory.sortedFrom, Bool.and_eq_true, decide_eq_true_eq] at h ⊢
    exact ⟨⟨⟨Nat.le_trans hl h.1.1.1, h.1.1.2⟩, h.1.2⟩, h.2⟩

theorem Memory.sortedFrom_write {lo hi a : Nat} {m : Memory} {b : Byte}
    (h : Memory.sortedFrom lo hi m = true) (hl : lo ≤ a) (hh : a < hi) :
    Memory.sortedFrom lo hi (Memory.write m a b) = true := by
  induction m generalizing lo with
  | nil => by_cases hb : b = 0#8 <;> simp [Memory.write, Memory.sortedFrom, hb, hl, hh]
  | cons p r ih =>
    obtain ⟨a', b'⟩ := p
    simp only [Memory.sortedFrom, Bool.and_eq_true, decide_eq_true_eq, bne_iff_ne] at h
    obtain ⟨⟨⟨h1, h2⟩, h3⟩, h4⟩ := h
    simp only [Memory.write]
    by_cases hlt : a < a'
    · by_cases hb : b = 0#8 <;> simp [Memory.sortedFrom, *]
    · by_cases heq : a = a'
      · subst heq
        by_cases hb : b = 0#8
        · simp [hb]; exact Memory.sortedFrom_mono h4 (by omega)
        · simp [Memory.sortedFrom, *]
      · simp only [hlt, heq, if_false, Memory.sortedFrom, Bool.and_eq_true, decide_eq_true_eq,
          bne_iff_ne]
        exact ⟨⟨⟨h1, h2⟩, h3⟩, ih h4 (by omega)⟩

/-- A write at an offset of the buffer keeps the canonical form. -/
theorem Memory.wf_write {m : Memory} {a : Nat} {b : Byte} (h : Memory.wf m = true) (ha : a < frameLen) :
    Memory.wf (Memory.write m a b) = true :=
  Memory.sortedFrom_write h (Nat.zero_le a) ha

theorem Memory.wf_write16 {m : Memory} {a : Nat} {w : Word} (h : Memory.wf m = true)
    (ha : a + 1 < frameLen) : Memory.wf (Memory.write16 m a w) = true :=
  Memory.wf_write (Memory.wf_write h (by omega)) ha

theorem Memory.wf_writeAll {bs : List Byte} : ∀ {m : Memory} {a : Nat}, Memory.wf m = true →
    a + bs.length ≤ frameLen → Memory.wf (Memory.writeAll m a bs) = true := by
  induction bs with
  | nil => intro m a h _; exact h
  | cons b bs ih =>
    intro m a h hl
    simp only [List.length_cons] at hl
    exact ih (Memory.wf_write h (by omega)) (by omega)

theorem Memory.lookup_below {lo hi a : Nat} {m : Memory} (h : Memory.sortedFrom lo hi m = true)
    (ha : a < lo) : m.lookup a = none := by
  induction m generalizing lo with
  | nil => rfl
  | cons p r ih =>
    obtain ⟨a', b'⟩ := p
    simp only [Memory.sortedFrom, Bool.and_eq_true, decide_eq_true_eq, bne_iff_ne] at h
    obtain ⟨⟨⟨h1, h2⟩, h3⟩, h4⟩ := h
    have hne : (a == a') = false := by simp; omega
    rw [List.lookup_cons, hne]
    exact ih h4 (by omega)

theorem Memory.read_cons (a' a : Nat) (b' : Byte) (r : Memory) :
    Memory.read ((a', b') :: r) a = if a = a' then b' else Memory.read r a := by
  by_cases h : a = a'
  · simp [Memory.read, h]
  · have : (a == a') = false := by simpa using h
    simp [Memory.read, List.lookup_cons, this, h]

theorem Memory.read_below {lo hi a : Nat} {m : Memory} (h : Memory.sortedFrom lo hi m = true)
    (ha : a < lo) : Memory.read m a = 0#8 := by
  simp [Memory.read, Memory.lookup_below h ha]

theorem Memory.read_write_sorted {lo hi a a' : Nat} {m : Memory} {b : Byte}
    (h : Memory.sortedFrom lo hi m = true) :
    Memory.read (Memory.write m a b) a' = if a' = a then b else Memory.read m a' := by
  induction m generalizing lo with
  | nil =>
    have hz : ∀ k, Memory.read [] k = 0#8 := fun _ => rfl
    by_cases hb : b = 0#8 <;> by_cases h' : a' = a <;>
      simp [Memory.write, hb, h', hz, Memory.read_cons]
  | cons p r ih =>
    obtain ⟨x, y⟩ := p
    have hs := h
    simp only [Memory.sortedFrom, Bool.and_eq_true, decide_eq_true_eq, bne_iff_ne] at h
    obtain ⟨⟨⟨h1, h2⟩, h3⟩, h4⟩ := h
    simp only [Memory.write]
    by_cases hlt : a < x
    · by_cases hb : b = 0#8
      · simp only [hlt, hb, if_true]
        by_cases h' : a' = a
        · subst h'
          simp only [if_true, Memory.read_cons]
          rw [if_neg (by omega)]
          exact Memory.read_below h4 (by omega)
        · simp [h']
      · simp only [hlt, hb, if_true, if_false]
        rw [Memory.read_cons]
    · by_cases heq : a = x
      · subst heq
        by_cases hb : b = 0#8
        · simp only [Nat.lt_irrefl, hb, if_true, if_false]
          by_cases h' : a' = a
          · subst h'; simp only [if_true]; exact Memory.read_below h4 (by omega)
          · simp [Memory.read_cons, h']
        · simp only [Nat.lt_irrefl, hb, if_true, if_false]
          by_cases h' : a' = a <;> simp [Memory.read_cons, h']
      · simp only [hlt, heq, if_false]
        rw [Memory.read_cons, Memory.read_cons, ih h4]
        by_cases h' : a' = a
        · subst h'; simp [heq]
        · simp [h']

/-- Read after write, in a canonical buffer. -/
theorem Memory.read_write {m : Memory} (h : Memory.wf m = true) (a a' : Nat) (b : Byte) :
    Memory.read (Memory.write m a b) a' = if a' = a then b else Memory.read m a' :=
  Memory.read_write_sorted h

theorem Memory.read_writeAll {bs : List Byte} : ∀ {m : Memory} {a : Nat}, Memory.wf m = true →
    a + bs.length ≤ frameLen → ∀ k, Memory.read (Memory.writeAll m a bs) k =
      if a ≤ k ∧ k < a + bs.length then bs.getD (k - a) 0#8 else Memory.read m k := by
  induction bs with
  | nil => intro m a _ _ k; simp [Memory.writeAll]
  | cons b bs ih =>
    intro m a h hl k
    simp only [List.length_cons] at hl ⊢
    rw [Memory.writeAll, ih (Memory.wf_write h (by omega)) (by omega), Memory.read_write h]
    by_cases h1 : k = a
    · subst h1; simp
    · by_cases h2 : a + 1 ≤ k ∧ k < a + 1 + bs.length
      · rw [if_pos h2, if_pos ⟨by omega, by omega⟩]
        obtain ⟨d, rfl⟩ : ∃ d, k = a + 1 + d := ⟨k - (a + 1), by omega⟩
        have e1 : a + 1 + d - (a + 1) = d := by omega
        have e2 : a + 1 + d - a = d + 1 := by omega
        rw [e1, e2, List.getD_cons_succ]
      · rw [if_neg h2, if_neg h1, if_neg (by omega)]

/-- The bytes of a buffer whose start has been written are the bytes written. -/
theorem Memory.bytes_writeAll {m : Memory} {bs : List Byte} (h : Memory.wf m = true)
    (hl : bs.length ≤ frameLen) : Memory.bytes (Memory.writeAll m 0 bs) bs.length = bs := by
  apply List.ext_getElem
  · simp [Memory.bytes]
  · intro k h1 h2
    simp only [Memory.bytes, List.getElem_map, List.getElem_range]
    rw [Memory.read_writeAll h (by simpa using hl), if_pos ⟨Nat.zero_le _, by simpa using h2⟩]
    simp [List.getD_eq_getElem?_getD, h2]

theorem Memory.length_bytes (m : Memory) (n : Nat) : (Memory.bytes m n).length = n := by
  simp [Memory.bytes]

end Sys2Proof.Machine
end

