-- ==== Sys2Proof/Laws/State.lean ====
section
/-! SUPPORT. One lemma per field per update: what each update of the state leaves and what it writes. -/

namespace Sys2Proof.Machine

variable (s : State)

@[simp] theorem State.emit_cfg (e : Event) : (s.emit e).cfg = s.cfg := rfl
@[simp] theorem State.emit_slaves (e : Event) : (s.emit e).slaves = s.slaves := rfl
@[simp] theorem State.emit_configured (e : Event) : (s.emit e).configured = s.configured := rfl
@[simp] theorem State.emit_count (e : Event) : (s.emit e).count = s.count := rfl
@[simp] theorem State.emit_addr (e : Event) : (s.emit e).addr = s.addr := rfl
@[simp] theorem State.emit_baud (e : Event) : (s.emit e).baud = s.baud := rfl
@[simp] theorem State.emit_tChar (e : Event) : (s.emit e).tChar = s.tChar := rfl
@[simp] theorem State.emit_period (e : Event) : (s.emit e).period = s.period := rfl
@[simp] theorem State.emit_deMargin (e : Event) : (s.emit e).deMargin = s.deMargin := rfl
@[simp] theorem State.emit_cursor (e : Event) : (s.emit e).cursor = s.cursor := rfl
@[simp] theorem State.emit_windowOpen (e : Event) : (s.emit e).windowOpen = s.windowOpen := rfl
@[simp] theorem State.emit_nextSend (e : Event) : (s.emit e).nextSend = s.nextSend := rfl
@[simp] theorem State.emit_deMode (e : Event) : (s.emit e).deMode = s.deMode := rfl
@[simp] theorem State.emit_de (e : Event) : (s.emit e).de = s.de := rfl
@[simp] theorem State.emit_gateAbandoned (e : Event) : (s.emit e).gateAbandoned = s.gateAbandoned :=
  rfl
@[simp] theorem State.emit_txbuf (e : Event) : (s.emit e).txbuf = s.txbuf := rfl
@[simp] theorem State.emit_rxbuf (e : Event) : (s.emit e).rxbuf = s.rxbuf := rfl
@[simp] theorem State.emit_seq (e : Event) : (s.emit e).seq = s.seq := rfl
@[simp] theorem State.emit_resetLine (e : Event) : (s.emit e).resetLine = s.resetLine := rfl
@[simp] theorem State.emit_port (e : Event) : (s.emit e).port = s.port := rfl
@[simp] theorem State.emit_cfgListPresent (e : Event) : (s.emit e).cfgListPresent = s.cfgListPresent :=
  rfl
@[simp] theorem State.emit_cfgAddr (e : Event) : (s.emit e).cfgAddr = s.cfgAddr := rfl
@[simp] theorem State.emit_nowIn (e : Event) : (s.emit e).nowIn = s.nowIn := rfl
@[simp] theorem State.emit_rxIn (e : Event) : (s.emit e).rxIn = s.rxIn := rfl
@[simp] theorem State.emit_draws (e : Event) : (s.emit e).draws = s.draws := rfl
@[simp] theorem State.emit_trace (e : Event) : (s.emit e).trace = s.trace ++ [e] := rfl
@[simp] theorem State.emit_responses (e : Event) : (s.emit e).responses = s.responses := rfl
@[simp] theorem State.emit_mres (e : Event) : (s.emit e).mres = s.mres := rfl

@[simp] theorem State.afterNow_cfg : s.afterNow.cfg = s.cfg := rfl
@[simp] theorem State.afterNow_slaves : s.afterNow.slaves = s.slaves := rfl
@[simp] theorem State.afterNow_configured : s.afterNow.configured = s.configured := rfl
@[simp] theorem State.afterNow_count : s.afterNow.count = s.count := rfl
@[simp] theorem State.afterNow_addr : s.afterNow.addr = s.addr := rfl
@[simp] theorem State.afterNow_baud : s.afterNow.baud = s.baud := rfl
@[simp] theorem State.afterNow_tChar : s.afterNow.tChar = s.tChar := rfl
@[simp] theorem State.afterNow_period : s.afterNow.period = s.period := rfl
@[simp] theorem State.afterNow_deMargin : s.afterNow.deMargin = s.deMargin := rfl
@[simp] theorem State.afterNow_cursor : s.afterNow.cursor = s.cursor := rfl
@[simp] theorem State.afterNow_windowOpen : s.afterNow.windowOpen = s.windowOpen := rfl
@[simp] theorem State.afterNow_nextSend : s.afterNow.nextSend = s.nextSend := rfl
@[simp] theorem State.afterNow_deMode : s.afterNow.deMode = s.deMode := rfl
@[simp] theorem State.afterNow_de : s.afterNow.de = s.de := rfl
@[simp] theorem State.afterNow_gateAbandoned : s.afterNow.gateAbandoned = s.gateAbandoned := rfl
@[simp] theorem State.afterNow_txbuf : s.afterNow.txbuf = s.txbuf := rfl
@[simp] theorem State.afterNow_rxbuf : s.afterNow.rxbuf = s.rxbuf := rfl
@[simp] theorem State.afterNow_seq : s.afterNow.seq = s.seq := rfl
@[simp] theorem State.afterNow_resetLine : s.afterNow.resetLine = s.resetLine := rfl
@[simp] theorem State.afterNow_port : s.afterNow.port = s.port := rfl
@[simp] theorem State.afterNow_cfgListPresent : s.afterNow.cfgListPresent = s.cfgListPresent := rfl
@[simp] theorem State.afterNow_cfgAddr : s.afterNow.cfgAddr = s.cfgAddr := rfl
@[simp] theorem State.afterNow_nowIn : s.afterNow.nowIn = s.nowIn.tail := rfl
@[simp] theorem State.afterNow_rxIn : s.afterNow.rxIn = s.rxIn := rfl
@[simp] theorem State.afterNow_draws : s.afterNow.draws = if s.nowIn.isEmpty then s.draws + 1 else s.draws :=
  rfl
@[simp] theorem State.afterNow_trace : s.afterNow.trace = s.trace ++ [.now s.nowValue] := rfl
@[simp] theorem State.afterNow_responses : s.afterNow.responses = s.responses := rfl
@[simp] theorem State.afterNow_mres : s.afterNow.mres = s.mres := rfl

@[simp] theorem State.afterRx_cfg : s.afterRx.cfg = s.cfg := rfl
@[simp] theorem State.afterRx_slaves : s.afterRx.slaves = s.slaves := rfl
@[simp] theorem State.afterRx_configured : s.afterRx.configured = s.configured := rfl
@[simp] theorem State.afterRx_count : s.afterRx.count = s.count := rfl
@[simp] theorem State.afterRx_addr : s.afterRx.addr = s.addr := rfl
@[simp] theorem State.afterRx_baud : s.afterRx.baud = s.baud := rfl
@[simp] theorem State.afterRx_tChar : s.afterRx.tChar = s.tChar := rfl
@[simp] theorem State.afterRx_period : s.afterRx.period = s.period := rfl
@[simp] theorem State.afterRx_deMargin : s.afterRx.deMargin = s.deMargin := rfl
@[simp] theorem State.afterRx_cursor : s.afterRx.cursor = s.cursor := rfl
@[simp] theorem State.afterRx_windowOpen : s.afterRx.windowOpen = s.windowOpen := rfl
@[simp] theorem State.afterRx_nextSend : s.afterRx.nextSend = s.nextSend := rfl
@[simp] theorem State.afterRx_deMode : s.afterRx.deMode = s.deMode := rfl
@[simp] theorem State.afterRx_de : s.afterRx.de = s.de := rfl
@[simp] theorem State.afterRx_gateAbandoned : s.afterRx.gateAbandoned = s.gateAbandoned := rfl
@[simp] theorem State.afterRx_txbuf : s.afterRx.txbuf = s.txbuf := rfl
@[simp] theorem State.afterRx_rxbuf : s.afterRx.rxbuf = Memory.writeAll s.rxbuf 0 s.rxBytes := rfl
@[simp] theorem State.afterRx_seq : s.afterRx.seq = s.seq := rfl
@[simp] theorem State.afterRx_resetLine : s.afterRx.resetLine = s.resetLine := rfl
@[simp] theorem State.afterRx_port : s.afterRx.port = s.port := rfl
@[simp] theorem State.afterRx_cfgListPresent : s.afterRx.cfgListPresent = s.cfgListPresent := rfl
@[simp] theorem State.afterRx_cfgAddr : s.afterRx.cfgAddr = s.cfgAddr := rfl
@[simp] theorem State.afterRx_nowIn : s.afterRx.nowIn = s.nowIn := rfl
@[simp] theorem State.afterRx_rxIn : s.afterRx.rxIn = s.rxIn.tail := rfl
@[simp] theorem State.afterRx_draws : s.afterRx.draws = if s.rxIn.isEmpty then s.draws + 1 else s.draws :=
  rfl
@[simp] theorem State.afterRx_trace : s.afterRx.trace = s.trace ++ [.rxRead s.rxBytes] := rfl
@[simp] theorem State.afterRx_responses : s.afterRx.responses = s.responses := rfl
@[simp] theorem State.afterRx_mres : s.afterRx.mres = s.mres := rfl

@[simp] theorem State.driveDe_cfg (l : Bool) : (s.driveDe l).cfg = s.cfg := rfl
@[simp] theorem State.driveDe_slaves (l : Bool) : (s.driveDe l).slaves = s.slaves := rfl
@[simp] theorem State.driveDe_configured (l : Bool) : (s.driveDe l).configured = s.configured := rfl
@[simp] theorem State.driveDe_count (l : Bool) : (s.driveDe l).count = s.count := rfl
@[simp] theorem State.driveDe_addr (l : Bool) : (s.driveDe l).addr = s.addr := rfl
@[simp] theorem State.driveDe_baud (l : Bool) : (s.driveDe l).baud = s.baud := rfl
@[simp] theorem State.driveDe_tChar (l : Bool) : (s.driveDe l).tChar = s.tChar := rfl
@[simp] theorem State.driveDe_period (l : Bool) : (s.driveDe l).period = s.period := rfl
@[simp] theorem State.driveDe_deMargin (l : Bool) : (s.driveDe l).deMargin = s.deMargin := rfl
@[simp] theorem State.driveDe_cursor (l : Bool) : (s.driveDe l).cursor = s.cursor := rfl
@[simp] theorem State.driveDe_windowOpen (l : Bool) : (s.driveDe l).windowOpen = s.windowOpen := rfl
@[simp] theorem State.driveDe_nextSend (l : Bool) : (s.driveDe l).nextSend = s.nextSend := rfl
@[simp] theorem State.driveDe_deMode (l : Bool) : (s.driveDe l).deMode = s.deMode := rfl
@[simp] theorem State.driveDe_de (l : Bool) : (s.driveDe l).de = l := rfl
@[simp] theorem State.driveDe_gateAbandoned (l : Bool) : (s.driveDe l).gateAbandoned = s.gateAbandoned :=
  rfl
@[simp] theorem State.driveDe_txbuf (l : Bool) : (s.driveDe l).txbuf = s.txbuf := rfl
@[simp] theorem State.driveDe_rxbuf (l : Bool) : (s.driveDe l).rxbuf = s.rxbuf := rfl
@[simp] theorem State.driveDe_seq (l : Bool) : (s.driveDe l).seq = s.seq := rfl
@[simp] theorem State.driveDe_resetLine (l : Bool) : (s.driveDe l).resetLine = s.resetLine := rfl
@[simp] theorem State.driveDe_port (l : Bool) : (s.driveDe l).port = s.port := rfl
@[simp] theorem State.driveDe_cfgListPresent (l : Bool) : (s.driveDe l).cfgListPresent = s.cfgListPresent :=
  rfl
@[simp] theorem State.driveDe_cfgAddr (l : Bool) : (s.driveDe l).cfgAddr = s.cfgAddr := rfl
@[simp] theorem State.driveDe_nowIn (l : Bool) : (s.driveDe l).nowIn = s.nowIn := rfl
@[simp] theorem State.driveDe_rxIn (l : Bool) : (s.driveDe l).rxIn = s.rxIn := rfl
@[simp] theorem State.driveDe_draws (l : Bool) : (s.driveDe l).draws = s.draws := rfl
@[simp] theorem State.driveDe_trace (l : Bool) : (s.driveDe l).trace = s.trace ++ [.de l] := rfl
@[simp] theorem State.driveDe_responses (l : Bool) : (s.driveDe l).responses = s.responses := rfl
@[simp] theorem State.driveDe_mres (l : Bool) : (s.driveDe l).mres = s.mres := rfl

@[simp] theorem State.pinModeOutput_cfg : s.pinModeOutput.cfg = s.cfg := rfl
@[simp] theorem State.pinModeOutput_slaves : s.pinModeOutput.slaves = s.slaves := rfl
@[simp] theorem State.pinModeOutput_configured : s.pinModeOutput.configured = s.configured := rfl
@[simp] theorem State.pinModeOutput_count : s.pinModeOutput.count = s.count := rfl
@[simp] theorem State.pinModeOutput_addr : s.pinModeOutput.addr = s.addr := rfl
@[simp] theorem State.pinModeOutput_baud : s.pinModeOutput.baud = s.baud := rfl
@[simp] theorem State.pinModeOutput_tChar : s.pinModeOutput.tChar = s.tChar := rfl
@[simp] theorem State.pinModeOutput_period : s.pinModeOutput.period = s.period := rfl
@[simp] theorem State.pinModeOutput_deMargin : s.pinModeOutput.deMargin = s.deMargin := rfl
@[simp] theorem State.pinModeOutput_cursor : s.pinModeOutput.cursor = s.cursor := rfl
@[simp] theorem State.pinModeOutput_windowOpen : s.pinModeOutput.windowOpen = s.windowOpen := rfl
@[simp] theorem State.pinModeOutput_nextSend : s.pinModeOutput.nextSend = s.nextSend := rfl
@[simp] theorem State.pinModeOutput_deMode : s.pinModeOutput.deMode = .output := rfl
@[simp] theorem State.pinModeOutput_de : s.pinModeOutput.de = s.de := rfl
@[simp] theorem State.pinModeOutput_gateAbandoned : s.pinModeOutput.gateAbandoned = s.gateAbandoned :=
  rfl
@[simp] theorem State.pinModeOutput_txbuf : s.pinModeOutput.txbuf = s.txbuf := rfl
@[simp] theorem State.pinModeOutput_rxbuf : s.pinModeOutput.rxbuf = s.rxbuf := rfl
@[simp] theorem State.pinModeOutput_seq : s.pinModeOutput.seq = s.seq := rfl
@[simp] theorem State.pinModeOutput_resetLine : s.pinModeOutput.resetLine = s.resetLine := rfl
@[simp] theorem State.pinModeOutput_port : s.pinModeOutput.port = s.port := rfl
@[simp] theorem State.pinModeOutput_cfgListPresent : s.pinModeOutput.cfgListPresent = s.cfgListPresent :=
  rfl
@[simp] theorem State.pinModeOutput_cfgAddr : s.pinModeOutput.cfgAddr = s.cfgAddr := rfl
@[simp] theorem State.pinModeOutput_nowIn : s.pinModeOutput.nowIn = s.nowIn := rfl
@[simp] theorem State.pinModeOutput_rxIn : s.pinModeOutput.rxIn = s.rxIn := rfl
@[simp] theorem State.pinModeOutput_draws : s.pinModeOutput.draws = s.draws := rfl
@[simp] theorem State.pinModeOutput_trace : s.pinModeOutput.trace = s.trace ++ [.pinMode] := rfl
@[simp] theorem State.pinModeOutput_responses : s.pinModeOutput.responses = s.responses := rfl
@[simp] theorem State.pinModeOutput_mres : s.pinModeOutput.mres = s.mres := rfl

@[simp] theorem State.respond_cfg (c : Code) (v : Word) : (s.respond c v).cfg = s.cfg := rfl
@[simp] theorem State.respond_slaves (c : Code) (v : Word) : (s.respond c v).slaves = s.slaves :=
  rfl
@[simp] theorem State.respond_configured (c : Code) (v : Word) : (s.respond c v).configured = s.configured :=
  rfl
@[simp] theorem State.respond_count (c : Code) (v : Word) : (s.respond c v).count = s.count := rfl
@[simp] theorem State.respond_addr (c : Code) (v : Word) : (s.respond c v).addr = s.addr := rfl
@[simp] theorem State.respond_baud (c : Code) (v : Word) : (s.respond c v).baud = s.baud := rfl
@[simp] theorem State.respond_tChar (c : Code) (v : Word) : (s.respond c v).tChar = s.tChar := rfl
@[simp] theorem State.respond_period (c : Code) (v : Word) : (s.respond c v).period = s.period :=
  rfl
@[simp] theorem State.respond_deMargin (c : Code) (v : Word) : (s.respond c v).deMargin = s.deMargin :=
  rfl
@[simp] theorem State.respond_cursor (c : Code) (v : Word) : (s.respond c v).cursor = s.cursor :=
  rfl
@[simp] theorem State.respond_windowOpen (c : Code) (v : Word) : (s.respond c v).windowOpen = s.windowOpen :=
  rfl
@[simp] theorem State.respond_nextSend (c : Code) (v : Word) : (s.respond c v).nextSend = s.nextSend :=
  rfl
@[simp] theorem State.respond_deMode (c : Code) (v : Word) : (s.respond c v).deMode = s.deMode :=
  rfl
@[simp] theorem State.respond_de (c : Code) (v : Word) : (s.respond c v).de = s.de := rfl
@[simp] theorem State.respond_gateAbandoned (c : Code) (v : Word) : (s.respond c v).gateAbandoned = s.gateAbandoned :=
  rfl
@[simp] theorem State.respond_txbuf (c : Code) (v : Word) : (s.respond c v).txbuf = s.txbuf := rfl
@[simp] theorem State.respond_rxbuf (c : Code) (v : Word) : (s.respond c v).rxbuf = s.rxbuf := rfl
@[simp] theorem State.respond_seq (c : Code) (v : Word) : (s.respond c v).seq = s.seq := rfl
@[simp] theorem State.respond_resetLine (c : Code) (v : Word) : (s.respond c v).resetLine = s.resetLine :=
  rfl
@[simp] theorem State.respond_port (c : Code) (v : Word) : (s.respond c v).port = s.port := rfl
@[simp] theorem State.respond_cfgListPresent (c : Code) (v : Word) : (s.respond c v).cfgListPresent = s.cfgListPresent :=
  rfl
@[simp] theorem State.respond_cfgAddr (c : Code) (v : Word) : (s.respond c v).cfgAddr = s.cfgAddr :=
  rfl
@[simp] theorem State.respond_nowIn (c : Code) (v : Word) : (s.respond c v).nowIn = s.nowIn := rfl
@[simp] theorem State.respond_rxIn (c : Code) (v : Word) : (s.respond c v).rxIn = s.rxIn := rfl
@[simp] theorem State.respond_draws (c : Code) (v : Word) : (s.respond c v).draws = s.draws := rfl
@[simp] theorem State.respond_trace (c : Code) (v : Word) : (s.respond c v).trace = s.trace := rfl
@[simp] theorem State.respond_responses (c : Code) (v : Word) : (s.respond c v).responses = s.responses ++ [⟨c, v⟩] :=
  rfl
@[simp] theorem State.respond_mres (c : Code) (v : Word) : (s.respond c v).mres = s.mres := rfl

@[simp] theorem State.afterDraw_cfg : s.afterDraw.cfg = s.cfg := rfl
@[simp] theorem State.afterDraw_slaves : s.afterDraw.slaves = s.slaves := rfl
@[simp] theorem State.afterDraw_configured : s.afterDraw.configured = s.configured := rfl
@[simp] theorem State.afterDraw_count : s.afterDraw.count = s.count := rfl
@[simp] theorem State.afterDraw_addr : s.afterDraw.addr = s.addr := rfl
@[simp] theorem State.afterDraw_baud : s.afterDraw.baud = s.baud := rfl
@[simp] theorem State.afterDraw_tChar : s.afterDraw.tChar = s.tChar := rfl
@[simp] theorem State.afterDraw_period : s.afterDraw.period = s.period := rfl
@[simp] theorem State.afterDraw_deMargin : s.afterDraw.deMargin = s.deMargin := rfl
@[simp] theorem State.afterDraw_cursor : s.afterDraw.cursor = s.cursor := rfl
@[simp] theorem State.afterDraw_windowOpen : s.afterDraw.windowOpen = s.windowOpen := rfl
@[simp] theorem State.afterDraw_nextSend : s.afterDraw.nextSend = s.nextSend := rfl
@[simp] theorem State.afterDraw_deMode : s.afterDraw.deMode = s.deMode := rfl
@[simp] theorem State.afterDraw_de : s.afterDraw.de = s.de := rfl
@[simp] theorem State.afterDraw_gateAbandoned : s.afterDraw.gateAbandoned = s.gateAbandoned := rfl
@[simp] theorem State.afterDraw_txbuf : s.afterDraw.txbuf = s.txbuf := rfl
@[simp] theorem State.afterDraw_rxbuf : s.afterDraw.rxbuf = s.rxbuf := rfl
@[simp] theorem State.afterDraw_seq : s.afterDraw.seq = s.seq := rfl
@[simp] theorem State.afterDraw_resetLine : s.afterDraw.resetLine = s.resetLine := rfl
@[simp] theorem State.afterDraw_port : s.afterDraw.port = s.port := rfl
@[simp] theorem State.afterDraw_cfgListPresent : s.afterDraw.cfgListPresent = s.cfgListPresent :=
  rfl
@[simp] theorem State.afterDraw_cfgAddr : s.afterDraw.cfgAddr = s.cfgAddr := rfl
@[simp] theorem State.afterDraw_nowIn : s.afterDraw.nowIn = s.nowIn := rfl
@[simp] theorem State.afterDraw_rxIn : s.afterDraw.rxIn = s.rxIn := rfl
@[simp] theorem State.afterDraw_draws : s.afterDraw.draws = s.draws + 1 := rfl
@[simp] theorem State.afterDraw_trace : s.afterDraw.trace = s.trace := rfl
@[simp] theorem State.afterDraw_responses : s.afterDraw.responses = s.responses := rfl
@[simp] theorem State.afterDraw_mres : s.afterDraw.mres = s.mres := rfl

@[simp] theorem State.leave_cfg (r : MicroResult) : (s.leave r).cfg = s.cfg := rfl
@[simp] theorem State.leave_slaves (r : MicroResult) : (s.leave r).slaves = s.slaves := rfl
@[simp] theorem State.leave_configured (r : MicroResult) : (s.leave r).configured = s.configured :=
  rfl
@[simp] theorem State.leave_count (r : MicroResult) : (s.leave r).count = s.count := rfl
@[simp] theorem State.leave_addr (r : MicroResult) : (s.leave r).addr = s.addr := rfl
@[simp] theorem State.leave_baud (r : MicroResult) : (s.leave r).baud = s.baud := rfl
@[simp] theorem State.leave_tChar (r : MicroResult) : (s.leave r).tChar = s.tChar := rfl
@[simp] theorem State.leave_period (r : MicroResult) : (s.leave r).period = s.period := rfl
@[simp] theorem State.leave_deMargin (r : MicroResult) : (s.leave r).deMargin = s.deMargin := rfl
@[simp] theorem State.leave_cursor (r : MicroResult) : (s.leave r).cursor = s.cursor := rfl
@[simp] theorem State.leave_windowOpen (r : MicroResult) : (s.leave r).windowOpen = s.windowOpen :=
  rfl
@[simp] theorem State.leave_nextSend (r : MicroResult) : (s.leave r).nextSend = s.nextSend := rfl
@[simp] theorem State.leave_deMode (r : MicroResult) : (s.leave r).deMode = s.deMode := rfl
@[simp] theorem State.leave_de (r : MicroResult) : (s.leave r).de = s.de := rfl
@[simp] theorem State.leave_gateAbandoned (r : MicroResult) : (s.leave r).gateAbandoned = s.gateAbandoned :=
  rfl
@[simp] theorem State.leave_txbuf (r : MicroResult) : (s.leave r).txbuf = s.txbuf := rfl
@[simp] theorem State.leave_rxbuf (r : MicroResult) : (s.leave r).rxbuf = s.rxbuf := rfl
@[simp] theorem State.leave_seq (r : MicroResult) : (s.leave r).seq = s.seq := rfl
@[simp] theorem State.leave_resetLine (r : MicroResult) : (s.leave r).resetLine = s.resetLine := rfl
@[simp] theorem State.leave_port (r : MicroResult) : (s.leave r).port = s.port := rfl
@[simp] theorem State.leave_cfgListPresent (r : MicroResult) : (s.leave r).cfgListPresent = s.cfgListPresent :=
  rfl
@[simp] theorem State.leave_cfgAddr (r : MicroResult) : (s.leave r).cfgAddr = s.cfgAddr := rfl
@[simp] theorem State.leave_nowIn (r : MicroResult) : (s.leave r).nowIn = s.nowIn := rfl
@[simp] theorem State.leave_rxIn (r : MicroResult) : (s.leave r).rxIn = s.rxIn := rfl
@[simp] theorem State.leave_draws (r : MicroResult) : (s.leave r).draws = s.draws := rfl
@[simp] theorem State.leave_trace (r : MicroResult) : (s.leave r).trace = s.trace := rfl
@[simp] theorem State.leave_responses (r : MicroResult) : (s.leave r).responses = s.responses := rfl
@[simp] theorem State.leave_mres (r : MicroResult) : (s.leave r).mres = r := rfl

@[simp] theorem State.updateSlave_cfg (i : Nat) (f : Slave → Slave) : (s.updateSlave i f).cfg = s.cfg :=
  rfl
@[simp] theorem State.updateSlave_slaves (i : Nat) (f : Slave → Slave) : (s.updateSlave i f).slaves = s.slaves.modify i f :=
  rfl
@[simp] theorem State.updateSlave_configured (i : Nat) (f : Slave → Slave) : (s.updateSlave i f).configured = s.configured :=
  rfl
@[simp] theorem State.updateSlave_count (i : Nat) (f : Slave → Slave) : (s.updateSlave i f).count = s.count :=
  rfl
@[simp] theorem State.updateSlave_addr (i : Nat) (f : Slave → Slave) : (s.updateSlave i f).addr = s.addr :=
  rfl
@[simp] theorem State.updateSlave_baud (i : Nat) (f : Slave → Slave) : (s.updateSlave i f).baud = s.baud :=
  rfl
@[simp] theorem State.updateSlave_tChar (i : Nat) (f : Slave → Slave) : (s.updateSlave i f).tChar = s.tChar :=
  rfl
@[simp] theorem State.updateSlave_period (i : Nat) (f : Slave → Slave) : (s.updateSlave i f).period = s.period :=
  rfl
@[simp] theorem State.updateSlave_deMargin (i : Nat) (f : Slave → Slave) : (s.updateSlave i f).deMargin = s.deMargin :=
  rfl
@[simp] theorem State.updateSlave_cursor (i : Nat) (f : Slave → Slave) : (s.updateSlave i f).cursor = s.cursor :=
  rfl
@[simp] theorem State.updateSlave_windowOpen (i : Nat) (f : Slave → Slave) : (s.updateSlave i f).windowOpen = s.windowOpen :=
  rfl
@[simp] theorem State.updateSlave_nextSend (i : Nat) (f : Slave → Slave) : (s.updateSlave i f).nextSend = s.nextSend :=
  rfl
@[simp] theorem State.updateSlave_deMode (i : Nat) (f : Slave → Slave) : (s.updateSlave i f).deMode = s.deMode :=
  rfl
@[simp] theorem State.updateSlave_de (i : Nat) (f : Slave → Slave) : (s.updateSlave i f).de = s.de :=
  rfl
@[simp] theorem State.updateSlave_gateAbandoned (i : Nat) (f : Slave → Slave) : (s.updateSlave i f).gateAbandoned = s.gateAbandoned :=
  rfl
@[simp] theorem State.updateSlave_txbuf (i : Nat) (f : Slave → Slave) : (s.updateSlave i f).txbuf = s.txbuf :=
  rfl
@[simp] theorem State.updateSlave_rxbuf (i : Nat) (f : Slave → Slave) : (s.updateSlave i f).rxbuf = s.rxbuf :=
  rfl
@[simp] theorem State.updateSlave_seq (i : Nat) (f : Slave → Slave) : (s.updateSlave i f).seq = s.seq :=
  rfl
@[simp] theorem State.updateSlave_resetLine (i : Nat) (f : Slave → Slave) : (s.updateSlave i f).resetLine = s.resetLine :=
  rfl
@[simp] theorem State.updateSlave_port (i : Nat) (f : Slave → Slave) : (s.updateSlave i f).port = s.port :=
  rfl
@[simp] theorem State.updateSlave_cfgListPresent (i : Nat) (f : Slave → Slave) : (s.updateSlave i f).cfgListPresent = s.cfgListPresent :=
  rfl
@[simp] theorem State.updateSlave_cfgAddr (i : Nat) (f : Slave → Slave) : (s.updateSlave i f).cfgAddr = s.cfgAddr :=
  rfl
@[simp] theorem State.updateSlave_nowIn (i : Nat) (f : Slave → Slave) : (s.updateSlave i f).nowIn = s.nowIn :=
  rfl
@[simp] theorem State.updateSlave_rxIn (i : Nat) (f : Slave → Slave) : (s.updateSlave i f).rxIn = s.rxIn :=
  rfl
@[simp] theorem State.updateSlave_draws (i : Nat) (f : Slave → Slave) : (s.updateSlave i f).draws = s.draws :=
  rfl
@[simp] theorem State.updateSlave_trace (i : Nat) (f : Slave → Slave) : (s.updateSlave i f).trace = s.trace :=
  rfl
@[simp] theorem State.updateSlave_responses (i : Nat) (f : Slave → Slave) : (s.updateSlave i f).responses = s.responses :=
  rfl
@[simp] theorem State.updateSlave_mres (i : Nat) (f : Slave → Slave) : (s.updateSlave i f).mres = s.mres :=
  rfl

@[simp] theorem State.wrapCursor_cfg : s.wrapCursor.cfg = s.cfg := rfl
@[simp] theorem State.wrapCursor_slaves : s.wrapCursor.slaves = s.slaves := rfl
@[simp] theorem State.wrapCursor_configured : s.wrapCursor.configured = s.configured := rfl
@[simp] theorem State.wrapCursor_count : s.wrapCursor.count = s.count := rfl
@[simp] theorem State.wrapCursor_addr : s.wrapCursor.addr = s.addr := rfl
@[simp] theorem State.wrapCursor_baud : s.wrapCursor.baud = s.baud := rfl
@[simp] theorem State.wrapCursor_tChar : s.wrapCursor.tChar = s.tChar := rfl
@[simp] theorem State.wrapCursor_period : s.wrapCursor.period = s.period := rfl
@[simp] theorem State.wrapCursor_deMargin : s.wrapCursor.deMargin = s.deMargin := rfl
@[simp] theorem State.wrapCursor_cursor : s.wrapCursor.cursor = if s.cursor = s.count then 0 else s.cursor :=
  rfl
@[simp] theorem State.wrapCursor_windowOpen : s.wrapCursor.windowOpen = s.windowOpen := rfl
@[simp] theorem State.wrapCursor_nextSend : s.wrapCursor.nextSend = s.nextSend := rfl
@[simp] theorem State.wrapCursor_deMode : s.wrapCursor.deMode = s.deMode := rfl
@[simp] theorem State.wrapCursor_de : s.wrapCursor.de = s.de := rfl
@[simp] theorem State.wrapCursor_gateAbandoned : s.wrapCursor.gateAbandoned = s.gateAbandoned := rfl
@[simp] theorem State.wrapCursor_txbuf : s.wrapCursor.txbuf = s.txbuf := rfl
@[simp] theorem State.wrapCursor_rxbuf : s.wrapCursor.rxbuf = s.rxbuf := rfl
@[simp] theorem State.wrapCursor_seq : s.wrapCursor.seq = s.seq := rfl
@[simp] theorem State.wrapCursor_resetLine : s.wrapCursor.resetLine = s.resetLine := rfl
@[simp] theorem State.wrapCursor_port : s.wrapCursor.port = s.port := rfl
@[simp] theorem State.wrapCursor_cfgListPresent : s.wrapCursor.cfgListPresent = s.cfgListPresent :=
  rfl
@[simp] theorem State.wrapCursor_cfgAddr : s.wrapCursor.cfgAddr = s.cfgAddr := rfl
@[simp] theorem State.wrapCursor_nowIn : s.wrapCursor.nowIn = s.nowIn := rfl
@[simp] theorem State.wrapCursor_rxIn : s.wrapCursor.rxIn = s.rxIn := rfl
@[simp] theorem State.wrapCursor_draws : s.wrapCursor.draws = s.draws := rfl
@[simp] theorem State.wrapCursor_trace : s.wrapCursor.trace = s.trace := rfl
@[simp] theorem State.wrapCursor_responses : s.wrapCursor.responses = s.responses := rfl
@[simp] theorem State.wrapCursor_mres : s.wrapCursor.mres = s.mres := rfl

@[simp] theorem State.toSeq_cfg (q : Seq) : (s.toSeq q).cfg = s.cfg := rfl
@[simp] theorem State.toSeq_slaves (q : Seq) : (s.toSeq q).slaves = s.slaves := rfl
@[simp] theorem State.toSeq_configured (q : Seq) : (s.toSeq q).configured = s.configured := rfl
@[simp] theorem State.toSeq_count (q : Seq) : (s.toSeq q).count = s.count := rfl
@[simp] theorem State.toSeq_addr (q : Seq) : (s.toSeq q).addr = s.addr := rfl
@[simp] theorem State.toSeq_baud (q : Seq) : (s.toSeq q).baud = s.baud := rfl
@[simp] theorem State.toSeq_tChar (q : Seq) : (s.toSeq q).tChar = s.tChar := rfl
@[simp] theorem State.toSeq_period (q : Seq) : (s.toSeq q).period = s.period := rfl
@[simp] theorem State.toSeq_deMargin (q : Seq) : (s.toSeq q).deMargin = s.deMargin := rfl
@[simp] theorem State.toSeq_cursor (q : Seq) : (s.toSeq q).cursor = s.cursor := rfl
@[simp] theorem State.toSeq_windowOpen (q : Seq) : (s.toSeq q).windowOpen = s.windowOpen := rfl
@[simp] theorem State.toSeq_nextSend (q : Seq) : (s.toSeq q).nextSend = s.nextSend := rfl
@[simp] theorem State.toSeq_deMode (q : Seq) : (s.toSeq q).deMode = s.deMode := rfl
@[simp] theorem State.toSeq_de (q : Seq) : (s.toSeq q).de = s.de := rfl
@[simp] theorem State.toSeq_gateAbandoned (q : Seq) : (s.toSeq q).gateAbandoned = s.gateAbandoned := rfl
@[simp] theorem State.toSeq_txbuf (q : Seq) : (s.toSeq q).txbuf = s.txbuf := rfl
@[simp] theorem State.toSeq_rxbuf (q : Seq) : (s.toSeq q).rxbuf = s.rxbuf := rfl
@[simp] theorem State.toSeq_seq (q : Seq) : (s.toSeq q).seq = q := rfl
@[simp] theorem State.toSeq_resetLine (q : Seq) : (s.toSeq q).resetLine = s.resetLine := rfl
@[simp] theorem State.toSeq_port (q : Seq) : (s.toSeq q).port = s.port := rfl
@[simp] theorem State.toSeq_cfgListPresent (q : Seq) : (s.toSeq q).cfgListPresent = s.cfgListPresent :=
  rfl
@[simp] theorem State.toSeq_cfgAddr (q : Seq) : (s.toSeq q).cfgAddr = s.cfgAddr := rfl
@[simp] theorem State.toSeq_nowIn (q : Seq) : (s.toSeq q).nowIn = s.nowIn := rfl
@[simp] theorem State.toSeq_rxIn (q : Seq) : (s.toSeq q).rxIn = s.rxIn := rfl
@[simp] theorem State.toSeq_draws (q : Seq) : (s.toSeq q).draws = s.draws := rfl
@[simp] theorem State.toSeq_trace (q : Seq) : (s.toSeq q).trace = s.trace := rfl
@[simp] theorem State.toSeq_responses (q : Seq) : (s.toSeq q).responses = s.responses := rfl
@[simp] theorem State.toSeq_mres (q : Seq) : (s.toSeq q).mres = s.mres := rfl
@[simp] theorem State.toSeq_slave (q : Seq) (i : Nat) : (s.toSeq q).slave i = s.slave i := rfl

@[simp] theorem State.emit_slave (e : Event) (i : Nat) : (s.emit e).slave i = s.slave i := rfl
@[simp] theorem State.emit_addrAt (e : Event) (i : Nat) : (s.emit e).addrAt i = s.addrAt i := rfl
@[simp] theorem State.afterNow_slave (i : Nat) : s.afterNow.slave i = s.slave i := rfl
@[simp] theorem State.afterNow_addrAt (i : Nat) : s.afterNow.addrAt i = s.addrAt i := rfl
@[simp] theorem State.afterRx_slave (i : Nat) : s.afterRx.slave i = s.slave i := rfl
@[simp] theorem State.afterRx_addrAt (i : Nat) : s.afterRx.addrAt i = s.addrAt i := rfl
@[simp] theorem State.driveDe_slave (l : Bool) (i : Nat) : (s.driveDe l).slave i = s.slave i := rfl
@[simp] theorem State.driveDe_addrAt (l : Bool) (i : Nat) : (s.driveDe l).addrAt i = s.addrAt i := rfl
@[simp] theorem State.pinModeOutput_slave (i : Nat) : s.pinModeOutput.slave i = s.slave i := rfl
@[simp] theorem State.pinModeOutput_addrAt (i : Nat) : s.pinModeOutput.addrAt i = s.addrAt i := rfl
@[simp] theorem State.respond_slave (c : Code) (v : Word) (i : Nat) : (s.respond c v).slave i = s.slave i :=
  rfl
@[simp] theorem State.respond_addrAt (c : Code) (v : Word) (i : Nat) : (s.respond c v).addrAt i = s.addrAt i :=
  rfl
@[simp] theorem State.afterDraw_slave (i : Nat) : s.afterDraw.slave i = s.slave i := rfl
@[simp] theorem State.afterDraw_addrAt (i : Nat) : s.afterDraw.addrAt i = s.addrAt i := rfl
@[simp] theorem State.leave_slave (r : MicroResult) (i : Nat) : (s.leave r).slave i = s.slave i := rfl
@[simp] theorem State.leave_addrAt (r : MicroResult) (i : Nat) : (s.leave r).addrAt i = s.addrAt i := rfl
@[simp] theorem State.updateSlave_addrAt (i : Nat) (f : Slave → Slave) (k : Nat) :
    (s.updateSlave i f).addrAt k = s.addrAt k :=
  rfl
@[simp] theorem State.wrapCursor_slave (i : Nat) : s.wrapCursor.slave i = s.slave i := rfl
@[simp] theorem State.wrapCursor_addrAt (i : Nat) : s.wrapCursor.addrAt i = s.addrAt i := rfl
@[simp] theorem State.toSeq_addrAt (q : Seq) (i : Nat) : (s.toSeq q).addrAt i = s.addrAt i := rfl

end Sys2Proof.Machine
end

