-- ==== Sys2Proof/Laws/Ops.lean ====
section
/-! SUPPORT. The shared operations, one lemma each: what a slave record holds after an update, the bytes a
telegram is made of, when a frame is accepted, what the gate, a transmission and a reception leave, and
every way `sendLoop`, `paramLoop`, `setparam` and the bus commands can answer. -/

namespace Sys2Proof.Machine

/-! ## Slave records -/

theorem State.slave_updateSlave (s : State) (i j : Nat) (f : Slave → Slave) :
    (s.updateSlave i f).slave j =
      if j = i ∧ i < s.slaves.length then f (s.slave i) else s.slave j := by
  simp only [State.slave, State.updateSlave_slaves, List.getD_eq_getElem?_getD, List.getElem?_modify]
  by_cases h : j = i
  · subst h
    by_cases hl : j < s.slaves.length
    · simp [hl]
    · simp [hl]
  · simp [h, Ne.symm h]

theorem State.updateSlave_length (s : State) (i : Nat) (f : Slave → Slave) :
    (s.updateSlave i f).slaves.length = s.slaves.length := by simp

/-- The record of another state with the same list of records. -/
theorem State.slave_congr {s t : State} (h : t.slaves = s.slaves) (i : Nat) : t.slave i = s.slave i := by
  simp [State.slave, h]

theorem State.addrAt_congr {s t : State} (h : t.addr = s.addr) (i : Nat) : t.addrAt i = s.addrAt i := by
  simp [State.addrAt, h]

theorem State.slave_beyond (s : State) {i : Nat} (h : s.slaves.length ≤ i) : s.slave i = Slave.reset := by
  simp [State.slave, List.getD_eq_getElem?_getD, h]

theorem State.inRange_iff (s : State) (idx : BitVec 4) : s.inRange idx = true ↔ idx.toNat < s.count := by
  simp [State.inRange]

/-! ## Telegrams -/

theorem wf_encodeBody {lge a : Byte} {k : Pkw} {z : Pzd} {b : Memory} (h : Memory.wf b = true) :
    Memory.wf (encodeBody lge a k z b) = true := by
  unfold encodeBody
  repeat first
    | exact h
    | apply Memory.wf_write16 _ (by decide)
    | apply Memory.wf_write _ (by decide)

theorem wf_encodeInto {lge a : Byte} {k : Pkw} {z : Pzd} {b : Memory} (h : Memory.wf b = true) :
    Memory.wf (encodeInto lge a k z b) = true :=
  Memory.wf_write (wf_encodeBody h) (by decide)

theorem read_encodeBody {lge a : Byte} {k : Pkw} {z : Pzd} {b : Memory} (h : Memory.wf b = true) :
    Memory.bytes (encodeBody lge a k z b) 15 = telegramBody lge a k z := by
  have w0 := Memory.wf_write (a := 0) (b := stx) h (by decide)
  have w1 := Memory.wf_write (a := 1) (b := lge) w0 (by decide)
  have w2 := Memory.wf_write (a := 2) (b := maskAddr a) w1 (by decide)
  have w3 := Memory.wf_write (a := 3) (b := hi8 k.pke) w2 (by decide)
  have w4 := Memory.wf_write (a := 4) (b := lo8 k.pke) w3 (by decide)
  have w5 := Memory.wf_write (a := 5) (b := hi8 k.ind) w4 (by decide)
  have w6 := Memory.wf_write (a := 6) (b := lo8 k.ind) w5 (by decide)
  have w7 := Memory.wf_write (a := 7) (b := hi8 k.vhi) w6 (by decide)
  have w8 := Memory.wf_write (a := 8) (b := lo8 k.vhi) w7 (by decide)
  have w9 := Memory.wf_write (a := 9) (b := hi8 k.vlo) w8 (by decide)
  have w10 := Memory.wf_write (a := 10) (b := lo8 k.vlo) w9 (by decide)
  have w11 := Memory.wf_write (a := 11) (b := hi8 z.w0) w10 (by decide)
  have w12 := Memory.wf_write (a := 12) (b := lo8 z.w0) w11 (by decide)
  have w13 := Memory.wf_write (a := 13) (b := hi8 z.w1) w12 (by decide)
  simp only [Memory.bytes, encodeBody, Memory.write16, List.range_succ, List.range_zero,
    List.map_cons, List.map_nil, List.nil_append, List.cons_append,
    Memory.read_write w13, Memory.read_write w12, Memory.read_write w11, Memory.read_write w10,
    Memory.read_write w9, Memory.read_write w8, Memory.read_write w7, Memory.read_write w6,
    Memory.read_write w5, Memory.read_write w4, Memory.read_write w3, Memory.read_write w2,
    Memory.read_write w1, Memory.read_write w0, Memory.read_write h]
  simp [telegramBody, stx, maskAddr]

theorem bcc_eq_xorOf {bytes : List Byte} {n : Nat} (h : n ≤ bytes.length) :
    bcc bytes n = xorOf (bytes.take n) := if_pos h

/-- The bytes of a buffer that `ENCODE` has filled are the telegram, whatever it held (R39, R111). -/
theorem bytes_encodeInto {lge a : Byte} {k : Pkw} {z : Pzd} {b : Memory} (h : Memory.wf b = true) :
    Memory.bytes (encodeInto lge a k z b) frameLen = telegram lge a k z := by
  have hb := read_encodeBody (lge := lge) (a := a) (k := k) (z := z) h
  have hw := wf_encodeBody (lge := lge) (a := a) (k := k) (z := z) h
  have hlen : (telegramBody lge a k z).length = 15 := rfl
  have hsplit : ∀ m : Memory, Memory.bytes m frameLen = Memory.bytes m 15 ++ [Memory.read m 15] := by
    intro m; simp [Memory.bytes, frameLen, List.range_succ]
  have hlast : Memory.read (encodeInto lge a k z b) 15 = xorOf (telegramBody lge a k z) := by
    rw [encodeInto, Memory.read_write hw, if_pos rfl, hb, bcc_eq_xorOf hlen.ge, List.take_of_length_le hlen.le]
  have hfirst : Memory.bytes (encodeInto lge a k z b) 15 = telegramBody lge a k z := by
    rw [← hb]
    simp only [Memory.bytes]
    apply List.map_congr_left
    intro k' hk'
    rw [encodeInto, Memory.read_write hw, if_neg]
    have := List.mem_range.mp hk'
    omega
  rw [hsplit, hfirst, hlast, telegram]

theorem encodeBytes_eq_telegram (lge a : Byte) (k : Pkw) (z : Pzd) :
    encodeBytes lge a k z = telegram lge a k z := bytes_encodeInto rfl

theorem length_telegram (lge a : Byte) (k : Pkw) (z : Pzd) : (telegram lge a k z).length = frameLen := rfl

/-! ## Frames received -/

/-- `DECODE` answers the extracted fields exactly for the frames that pass the checks (R112, R113). -/
theorem decodeBytes_eq (c : Config) (f : List Byte) [Decidable (FrameOk c f)] :
    decodeBytes c f = if FrameOk c f then .ok (extractTelegram f) else .malformed := by
  unfold decodeBytes
  by_cases h1 : f.length = frameLen
  · rw [bcc_eq_xorOf (show 15 ≤ f.length by rw [h1]; decide)]
    by_cases h2 : f.getD 0 0#8 = stx
    · by_cases h3 : c.checkLge = true ∧ f.getD 1 0#8 ≠ c.lge
      · rw [if_neg (not_not.mpr h1), if_neg (not_not.mpr h2), if_pos h3, if_neg]
        exact fun hf => h3.2 (hf.2.2.1 h3.1)
      · by_cases h4 : xorOf (f.take 15) = f.getD 15 0#8
        · rw [if_neg (not_not.mpr h1), if_neg (not_not.mpr h2), if_neg h3, if_neg (not_not.mpr h4), if_pos]
          exact ⟨h1, h2, fun hc => by_contra fun hn => h3 ⟨hc, hn⟩, h4.symm⟩
        · rw [if_neg (not_not.mpr h1), if_neg (not_not.mpr h2), if_neg h3, if_pos h4, if_neg]
          exact fun hf => h4 hf.2.2.2.symm
    · rw [if_neg (not_not.mpr h1), if_pos h2, if_neg]
      exact fun hf => h2 hf.2.1
  · rw [if_pos h1, if_neg]
    exact fun hf => h1 hf.1

theorem maskAddr_eq_busAddress (b : Byte) (a : BitVec 5) :
    maskAddr b = busAddress a ↔ b.extractLsb' 0 5 = a := by
  have h : maskAddr b = busAddress (b.extractLsb' 0 5) := by revert b; decide
  rw [h]
  refine ⟨fun h' => ?_, fun h' => by rw [h']⟩
  have : (busAddress (b.extractLsb' 0 5)).setWidth 5 = (busAddress a).setWidth 5 := by rw [h']
  simpa [busAddress] using this

/-- In a state whose `RXBUF` is canonical the scheduler looks at the bytes that were read (R179). -/
theorem State.rxFrame_eq {s : State} (h : Memory.wf s.rxbuf = true) : s.rxFrame = s.rxBytes :=
  Memory.bytes_writeAll h (by simp [State.rxBytes, frameLen])

/-- `RECEIVE` accepts exactly the frames from the cursor's slave (R179). -/
theorem State.accepted_eq {s : State} (h : Memory.wf s.rxbuf = true)
    [Decidable (FrameFrom s.cfg (s.addrAt s.cursor) s.rxBytes)] :
    s.accepted = if FrameFrom s.cfg (s.addrAt s.cursor) s.rxBytes
      then some (extractTelegram s.rxBytes) else none := by
  classical
  unfold State.accepted
  rw [State.rxFrame_eq h, decodeBytes_eq]
  by_cases hf : FrameOk s.cfg s.rxBytes
  · rw [if_pos hf]
    by_cases ha : (s.rxBytes.getD 2 0#8).extractLsb' 0 5 = s.addrAt s.cursor
    · rw [if_pos (show FrameFrom _ _ _ from ⟨hf, ha⟩)]
      exact if_pos ((maskAddr_eq_busAddress _ _).mpr ha)
    · rw [if_neg (show ¬ FrameFrom _ _ _ from fun hh => ha hh.2)]
      exact if_neg fun hh => ha ((maskAddr_eq_busAddress _ _).mp hh)
  · rw [if_neg hf, if_neg (show ¬ FrameFrom _ _ _ from fun hh => hf hh.1)]

/-! ## The gate -/

theorem State.gate_waiting_iff (s : State) : s.gate = .waiting ↔ ¬ s.gateEnds := by
  unfold State.gate gateCase State.gateEnds Config.anomalyBound
  by_cases h1 : s.nextSend ≤ s.nowValue
  · simp [h1]
  · by_cases h2 : 10 * s.cfg.ticksPerSecond ≤ s.nextSend - s.nowValue <;> simp [h1, h2]

theorem State.gate_ends_iff (s : State) : s.gate ≠ .waiting ↔ s.gateEnds := by
  rw [Ne, State.gate_waiting_iff, not_not]

theorem State.gate_abandoned_iff (s : State) :
    s.gate = .abandoned ↔ s.nowValue < s.nextSend ∧ 10 * s.cfg.ticksPerSecond ≤ s.nextSend - s.nowValue := by
  unfold State.gate gateCase Config.anomalyBound
  by_cases h1 : s.nextSend ≤ s.nowValue
  · simp [h1]
  · by_cases h2 : 10 * s.cfg.ticksPerSecond ≤ s.nextSend - s.nowValue
    · simp [h1, h2, Nat.lt_of_not_le h1]
    · simp [h1, h2]

/-! ## Transmission and reception in closed form -/

theorem State.selected_eq (s : State) : s.selected =
    { s.afterNow with
      gateAbandoned := s.gateAbandoned || decide (s.gate = .abandoned), cursor := s.wrapped } := rfl

theorem State.selected_cursor (s : State) : s.selected.cursor = s.wrapped := rfl

/-- What a transmission writes: `TXBUF`, the trace, the line, the gate and the window (R176 to R178). -/
theorem State.transmit_eq (s : State) : s.transmit =
    { s with
      txbuf := encodeInto s.cfg.lge (busAddress (s.addrAt s.cursor)) (s.slave s.cursor).pkw
        (s.slave s.cursor).pzd s.txbuf
      nowIn := s.nowIn.tail
      draws := if s.nowIn.isEmpty then s.draws + 1 else s.draws
      trace := s.trace ++ s.sendEvents (Memory.bytes (encodeInto s.cfg.lge
        (busAddress (s.addrAt s.cursor)) (s.slave s.cursor).pkw (s.slave s.cursor).pzd s.txbuf) frameLen)
        s.nowValue
      de := false
      nextSend := s.nowValue + s.period
      windowOpen := true } := by
  simp [State.transmit, State.rearm, State.driveTelegram, State.delay, State.txWrite, State.emit,
    State.driveDe, State.afterNow, State.compose, State.sendEvents, State.nowValue, Config.deHold]

theorem Slave.pkw_eq (r : Slave) : r.pkw =
    if r.pending then ⟨r.pke, r.ind, r.vhi, r.vlo⟩ else ⟨0#16, 0#16, 0#16, 0#16⟩ := rfl

/-- The telegram of a transmission in a state whose `TXBUF` is canonical (R176). -/
theorem State.transmit_telegram {s : State} (h : Memory.wf s.txbuf = true) :
    Memory.bytes (encodeInto s.cfg.lge (busAddress (s.addrAt s.cursor)) (s.slave s.cursor).pkw
      (s.slave s.cursor).pzd s.txbuf) frameLen = s.telegramTo s.cursor := by
  rw [bytes_encodeInto h]; rfl

theorem Slave.accept_eq (t : Telegram) (r : Slave) :
    r.accept t = { r with status := t.pzd.w0, actual := t.pzd.w1, pending := false } := by
  unfold Slave.accept Slave.resolve
  cases hr : r.pending <;> simp

theorem State.afterFrame_eq (s : State) : s.afterFrame =
    { s.afterRx with slaves := match s.accepted with
      | some t => s.slaves.modify s.cursor (Slave.accept t)
      | none => s.slaves } := by
  unfold State.afterFrame
  cases s.accepted <;> rfl

/-- What a reception writes (R180 to R182). -/
theorem State.receive_eq (s : State) : s.receive =
    { s with
      slaves := match s.accepted with
        | some t => s.slaves.modify s.cursor (Slave.accept t)
        | none => s.slaves
      rxIn := s.rxIn.tail
      draws := if s.rxIn.isEmpty then s.draws + 1 else s.draws
      rxbuf := Memory.writeAll s.rxbuf 0 s.rxBytes
      trace := s.trace ++ [.rxRead s.rxBytes, .de true]
      de := true
      cursor := s.cursor + 1
      windowOpen := false } := by
  unfold State.receive State.receiveTail
  rw [State.afterFrame_eq]
  simp [State.driveDe, State.afterRx]

theorem State.receive_slave (s : State) (i : Nat) : s.receive.slave i =
    match s.accepted with
    | some t => if i = s.cursor ∧ s.cursor < s.slaves.length then (s.slave s.cursor).accept t
        else s.slave i
    | none => s.slave i := by
  rw [State.receive_eq]
  cases s.accepted with
  | none => rfl
  | some t => exact State.slave_updateSlave s s.cursor i (Slave.accept t)

/-- The code a `RECEIVE` of an accepted frame returns for a pending request, as R134 tabulates it. -/
theorem resolveCode_extract (c : Config) (f : List Byte) :
    resolveCode c (extractTelegram f).pkw.pke (extractTelegram f).pkw.vhi (extractTelegram f).pkw.vlo
      = ackCodeOf c f := by
  unfold resolveCode ackOutcome
  by_cases h1 : akOf (extractTelegram f).pkw.pke = c.akNoResp
  · rw [if_pos h1]; exact (if_pos h1).symm
  rw [if_neg h1]; refine Eq.trans ?_ (if_neg h1).symm
  by_cases h2 : akOf (extractTelegram f).pkw.pke = c.akNoRights
  · rw [if_pos h2]; exact (if_pos h2).symm
  rw [if_neg h2]; refine Eq.trans ?_ (if_neg h2).symm
  by_cases h3 : akOf (extractTelegram f).pkw.pke = c.akCantExecute
  · rw [if_pos h3]; refine Eq.trans ?_ (if_pos h3).symm
    by_cases h4 : c.errcode (extractTelegram f).pkw.vhi (extractTelegram f).pkw.vlo = 0#16
    · rw [if_pos h4]; exact (if_pos h4).symm
    · rw [if_neg h4]; exact (if_neg h4).symm
  · rw [if_neg h3]; exact (if_neg h3).symm

/-! ## Every way a bus operation can answer -/

theorem sendLoop_next {s t : State} (h : sendLoop s = .next t) :
    (s.gate = .waiting ∧ t = s.afterGate.toSeq .sendGate) ∨
    (s.gate ≠ .waiting ∧ s.wrapped < s.count ∧
      t = (s.selected.transmit.toSeq .idle).respond rcOk 0#16) := by
  unfold sendLoop done at h
  split at h
  · exact .inl ⟨‹_›, by cases h; rfl⟩
  · split at h
    · exact .inr ⟨‹_›, ‹_›, by cases h; rfl⟩
    · cases h

theorem execSend_next {s t : State} (h : exec .send s = .next t) :
    s.sendPhase = true ∧ sendLoop s = .next t := by
  replace h : execSend s = .next t := h
  unfold execSend at h
  split at h
  · exact ⟨‹_›, h⟩
  · cases h

theorem execReceive_next {s t : State} (h : exec .receive s = .next t) :
    s.receivePhase = true ∧ s.cursor < s.count ∧ t = s.receive.respond s.receiveCode 0#16 := by
  replace h : execReceive s = .next t := h
  unfold execReceive done at h
  split at h
  · split at h
    · exact ⟨‹_›, ‹_›, by cases h; rfl⟩
    · cases h
  · cases h

theorem paramLoop_next {idx : BitVec 4} {s t : State} (h : paramLoop idx s = .next t) :
    (s.gate = .waiting ∧ t = s.afterGate.toSeq (.paramGate idx)) ∨
    (s.gate ≠ .waiting ∧ s.wrapped < s.count ∧ (s.scan.slave idx.toNat).pending = true ∧
      t = s.scan.toSeq (.paramGate idx)) ∨
    (s.gate ≠ .waiting ∧ s.wrapped < s.count ∧ (s.scan.slave idx.toNat).pending = false ∧
      t = (s.scan.toSeq .idle).respond s.scanCode 0#16) := by
  unfold paramLoop done at h
  split at h
  · exact .inl ⟨‹_›, by cases h; rfl⟩
  · split at h
    · split at h
      · exact .inr (.inl ⟨‹_›, ‹_›, ‹_›, by cases h; rfl⟩)
      · exact .inr (.inr ⟨‹_›, ‹_›, (Bool.not_eq_true _).mp ‹_›, by cases h; rfl⟩)
    · cases h

theorem setparam_next {idx : BitVec 4} {request : Slave → Slave} {s t : State}
    (h : setparam idx request s = .next t) :
    (s.inRange idx = false ∧ t = s.afterDraw.respond (Config.freeCode s.draws) 0#16) ∨
    (s.inRange idx = true ∧ s.sendPhase = true ∧
      paramLoop idx (s.updateSlave idx.toNat request) = .next t) := by
  unfold setparam done at h
  split at h
  · split at h
    · exact .inr ⟨‹_›, ‹_›, h⟩
    · cases h
  · exact .inl ⟨(Bool.not_eq_true _).mp ‹_›, by cases h; rfl⟩

theorem execConfigure_next {n : BitVec 4} {margin : Word} {baud : DWord} {s t : State}
    (h : exec (.configure n margin baud) s = .next t) :
    s.configured = false ∧ baud ≠ 0#32 ∧
    ((∃ e, t = s.raiseError e) ∨
     (s.cfgListPresent = true ∧ n.toNat ≤ s.cfg.maxSlaves ∧ n.toNat ≠ 0 ∧
      t = (s.configure n margin baud).respond rcOk 0#16)) := by
  replace h : execConfigure n margin baud s = .next t := h
  unfold execConfigure done at h
  split at h
  · cases h
  · rename_i h0
    split at h
    · cases h
    · rename_i h1
      refine ⟨by simpa using h0, h1, ?_⟩
      split at h
      · exact .inl ⟨.nullList, by cases h; rfl⟩
      · rename_i h2
        split at h
        · exact .inl ⟨.tooMany, by cases h; rfl⟩
        · rename_i h3
          split at h
          · exact .inl ⟨.empty, by cases h; rfl⟩
          · exact .inr ⟨by simpa using h2, by omega, ‹_›, by cases h; rfl⟩

/-- What an operation that does not work on the bus leaves alone, in every state. -/
theorem exec_other_frame {i : Instr} {s t : State} (hi : i.isBus = false) (h : exec i s = .next t) :
    t = { s with
      slaves := t.slaves, txbuf := t.txbuf, draws := t.draws, responses := t.responses, mres := t.mres } := by
  cases i with
  | configure n margin baud => cases hi
  | send => cases hi
  | receive => cases hi
  | setparamW idx param w => cases hi
  | setparamD idx param v => cases hi
  | setparamF idx param f => cases hi
  | encode a k z => cases h; rfl
  | decode bytes => cases h; rfl
  | bcc buf len => cases h; rfl
  | noTask => cases h; rfl
  | illegalOp0 rest => cases h
  | illegalOpC rest => cases h
  | illegalOpD rest => cases h
  | illegalOpE rest => cases h
  | illegalOpF rest => cases h
  | getActual idx => cases h; unfold State.answer; split <;> rfl
  | chkStatus idx mask => cases h; unfold State.answer; split <;> rfl
  | _ => cases h; simp only [State.updateInRange, State.resolveAt, State.leave, State.respond]; split <;> rfl

/-! ## A scan and a SETPARAM on the slave records -/

@[simp] theorem State.scanStart_slaves (s : State) : s.selected.transmit.slaves = s.slaves := by
  rw [State.transmit_eq]; rfl

@[simp] theorem State.scanStart_slave (s : State) (k : Nat) : s.selected.transmit.slave k = s.slave k :=
  State.slave_congr (State.scanStart_slaves s) k

@[simp] theorem State.scanStart_addrAt (s : State) (k : Nat) : s.selected.transmit.addrAt k = s.addrAt k :=
  State.addrAt_congr (by rw [State.transmit_eq]; rfl) k

@[simp] theorem State.scanStart_cfg (s : State) : s.selected.transmit.cfg = s.cfg := by
  rw [State.transmit_eq]; rfl

@[simp] theorem State.scanStart_cursor (s : State) : s.selected.transmit.cursor = s.wrapped := by
  rw [State.transmit_eq]; rfl

@[simp] theorem State.scanStart_rxbuf (s : State) : s.selected.transmit.rxbuf = s.rxbuf := by
  rw [State.transmit_eq]; rfl

/-- The bytes a scan reads: those of the `RxRead` that follows its two clock samples. -/
@[simp] theorem State.scanStart_rxBytes (s : State) :
    s.selected.transmit.rxBytes = s.afterNow.afterNow.rxBytes := by rw [State.transmit_eq]; rfl

/-- `RECEIVE` on the records, by the frame that arrived (R180, R181). -/
theorem State.receive_slave_frame {s : State} (h : Memory.wf s.rxbuf = true) (k : Nat)
    [Decidable (FrameFrom s.cfg (s.addrAt s.cursor) s.rxBytes)] :
    s.receive.slave k =
      if FrameFrom s.cfg (s.addrAt s.cursor) s.rxBytes ∧ k = s.cursor ∧ s.cursor < s.slaves.length
      then (s.slave s.cursor).accept (extractTelegram s.rxBytes) else s.slave k := by
  rw [State.receive_slave, State.accepted_eq h]
  by_cases hf : FrameFrom s.cfg (s.addrAt s.cursor) s.rxBytes
  · rw [if_pos hf]; simp only [hf, true_and]
  · rw [if_neg hf]; simp only [hf, false_and, if_false]

/-- A scan on the records: at most the record of the slave it addresses, if its frame is accepted. -/
theorem State.scan_slave {s : State} (h : Memory.wf s.rxbuf = true) (k : Nat)
    [Decidable (FrameFrom s.cfg (s.addrAt s.wrapped) s.afterNow.afterNow.rxBytes)] :
    s.scan.slave k =
      if FrameFrom s.cfg (s.addrAt s.wrapped) s.afterNow.afterNow.rxBytes ∧ k = s.wrapped ∧
        s.wrapped < s.slaves.length
      then (s.slave s.wrapped).accept (extractTelegram s.afterNow.afterNow.rxBytes) else s.slave k := by
  classical
  unfold State.scan
  rw [State.receive_slave_frame (by simpa using h)]
  simp only [State.scanStart_cfg, State.scanStart_addrAt, State.scanStart_cursor,
    State.scanStart_rxBytes, State.scanStart_slave, State.scanStart_slaves]

theorem paramLoop_slave {s t : State} {idx : BitVec 4} (h : Memory.wf s.rxbuf = true)
    (ht : paramLoop idx s = .next t) (k : Nat) :
    t.slave k = s.slave k ∨
    (FrameFrom s.cfg (s.addrAt s.wrapped) s.afterNow.afterNow.rxBytes ∧ k = s.wrapped ∧
      t.slave k = (s.slave k).accept (extractTelegram s.afterNow.afterNow.rxBytes)) := by
  classical
  have key : s.scan.slave k = s.slave k ∨
      (FrameFrom s.cfg (s.addrAt s.wrapped) s.afterNow.afterNow.rxBytes ∧ k = s.wrapped ∧
        s.scan.slave k = (s.slave k).accept (extractTelegram s.afterNow.afterNow.rxBytes)) := by
    rw [State.scan_slave h k]
    split
    · rename_i hc; exact .inr ⟨hc.1, hc.2.1, by rw [hc.2.1]⟩
    · exact .inl rfl
  rcases paramLoop_next ht with ⟨_, rfl⟩ | ⟨_, _, _, rfl⟩ | ⟨_, _, _, rfl⟩
  · exact .inl rfl
  · rw [State.toSeq_slave]; exact key
  · rw [State.respond_slave, State.toSeq_slave]; exact key

theorem State.updateInRange_slave (s : State) (idx : BitVec 4) (f : Slave → Slave) (k : Nat) :
    (s.updateInRange idx f).slave k =
      if k = idx.toNat ∧ idx.toNat < s.count ∧ idx.toNat < s.slaves.length then f (s.slave k)
      else s.slave k := by
  unfold State.updateInRange
  by_cases h : idx.toNat < s.count
  · rw [if_pos ((s.inRange_iff idx).mpr h), State.slave_updateSlave]
    by_cases hk : k = idx.toNat
    · subst hk; simp [h]
    · simp [hk]
  · rw [if_neg (by rw [s.inRange_iff]; exact h)]; simp [h]

/-- Every `SETPARAM_*` is `setparam` with its request (R200 to R202). -/
theorem exec_isSetparam {s : State} {i : Instr} {idx : BitVec 4} {pke vhi vlo : Word}
    (h : IsSetparam s.cfg i idx pke vhi vlo) : exec i s = setparam idx (Slave.request pke vhi vlo) s := by
  cases h <;> rfl

/-- A `SETPARAM_*` on the records: its request, then at most an accepted frame on the slave its scan
addresses. -/
theorem setparam_slave {s t : State} {idx : BitVec 4} {request : Slave → Slave}
    (h : Memory.wf s.rxbuf = true) (ht : setparam idx request s = .next t) (k : Nat) :
    let q := if k = idx.toNat ∧ idx.toNat < s.count ∧ idx.toNat < s.slaves.length
      then request (s.slave k) else s.slave k
    t.slave k = q ∨
    (FrameFrom s.cfg (s.addrAt s.wrapped) s.afterNow.afterNow.rxBytes ∧ k = s.wrapped ∧
      t.slave k = q.accept (extractTelegram s.afterNow.afterNow.rxBytes)) := by
  intro q
  rcases setparam_next ht with ⟨hr, rfl⟩ | ⟨hr, _, hl⟩
  · have : ¬ idx.toNat < s.count := by simpa [State.inRange] using hr
    exact .inl (by simp [q, this])
  · have hq : (s.updateSlave idx.toNat request).slave k = q := by
      rw [State.slave_updateSlave]
      have : idx.toNat < s.count := (s.inRange_iff idx).mp hr
      by_cases hk : k = idx.toNat
      · subst hk; simp [q, this]
      · simp [q, hk]
    have := paramLoop_slave (s := s.updateSlave idx.toNat request) h hl k
    rw [hq] at this
    exact this

/-! ## Bytes of a telegram -/

theorem Memory.getD_bytes (m : Memory) (n o : Nat) (h : o < n) :
    (Memory.bytes m n).getD o 0#8 = Memory.read m o := by
  simp [Memory.bytes, List.getD_eq_getElem?_getD, h]

/-- A byte of a buffer that `ENCODE` has filled. -/
theorem read_encodeInto {lge a : Byte} {k : Pkw} {z : Pzd} {b : Memory} (h : Memory.wf b = true) {o : Nat}
    (ho : o < 16) : Memory.read (encodeInto lge a k z b) o = (telegram lge a k z).getD o 0#8 := by
  rw [← Memory.getD_bytes _ frameLen _ ho, bytes_encodeInto h]

theorem Memory.read_beyond {m : Memory} (h : Memory.wf m = true) {o : Nat} (ho : 16 ≤ o) :
    Memory.read m o = 0#8 := by
  have key : ∀ (m : Memory) (lo : Nat), Memory.sortedFrom lo 16 m = true → Memory.read m o = 0#8 := by
    intro m
    induction m with
    | nil => intro _ _; rfl
    | cons p r ih =>
      intro lo h
      obtain ⟨a, b⟩ := p
      simp only [Memory.sortedFrom, Bool.and_eq_true, decide_eq_true_eq] at h
      rw [Memory.read_cons, if_neg (by omega)]
      exact ih _ h.2
  exact key m 0 h

/-- A frame `ENCODE` made passes every check of `DECODE`. -/
theorem frameOk_telegram (c : Config) (a : Byte) (k : Pkw) (z : Pzd) : FrameOk c (telegram c.lge a k z) :=
  ⟨rfl, rfl, fun _ => rfl, rfl⟩

theorem extract_telegram (lge a : Byte) (k : Pkw) (z : Pzd) :
    extractTelegram (telegram lge a k z) = ⟨a &&& 0x1F#8, k, z⟩ := by
  show Telegram.mk (maskAddr (a &&& 0x1F#8))
    ⟨be16 (hi8 k.pke) (lo8 k.pke), be16 (hi8 k.ind) (lo8 k.ind), be16 (hi8 k.vhi) (lo8 k.vhi),
      be16 (hi8 k.vlo) (lo8 k.vlo)⟩ ⟨be16 (hi8 z.w0) (lo8 z.w0), be16 (hi8 z.w1) (lo8 z.w1)⟩ = _
  simp only [be16_hi8_lo8, maskAddr, BitVec.and_assoc]
  rfl

theorem xorOf_append (l m : List Byte) : xorOf (l ++ m) = xorOf l ^^^ xorOf m := by
  have key : ∀ (l : List Byte) (x : Byte),
      l.foldl (fun x b => x ^^^ b) x = x ^^^ l.foldl (fun x b => x ^^^ b) 0#8 := by
    intro l
    induction l with
    | nil => intro x; simp
    | cons a l ih => intro x; simp only [List.foldl_cons]; rw [ih, ih (0#8 ^^^ a)]; simp [BitVec.xor_assoc]
  unfold xorOf
  rw [List.foldl_append, key m]

theorem xorOf_cons (a : Byte) (m : List Byte) : xorOf (a :: m) = a ^^^ xorOf m := by
  simpa [xorOf] using xorOf_append [a] m

/-! ## Gates and completing scans in closed form -/

theorem State.abandoned_decide {s : State} (h : s.gateEnds) :
    decide (s.gate = .abandoned) = decide (s.nowValue < s.nextSend) := by
  rw [decide_eq_decide, State.gate_abandoned_iff]
  exact ⟨fun h => h.1, fun h1 => ⟨h1, h.resolve_left (Nat.not_le_of_lt h1)⟩⟩

/-- The rest of a `SEND` whose gate has ended, in closed form (R175 to R178). -/
theorem State.scanStart_eq {s : State} (h : s.gateEnds) (hw : Memory.wf s.txbuf = true) :
    s.selected.transmit =
      { s with
        cursor := s.wrapped, windowOpen := true, de := false
        txbuf := encodeInto s.cfg.lge (busAddress (s.addrAt s.wrapped)) (s.slave s.wrapped).pkw
          (s.slave s.wrapped).pzd s.txbuf
        nextSend := s.afterNow.nowValue + s.period
        gateAbandoned := s.gateAbandoned || decide (s.nowValue < s.nextSend)
        nowIn := s.nowIn.drop 2, draws := s.draws + (2 - s.nowIn.length)
        trace := s.trace ++ .now s.nowValue ::
          s.sendEvents (s.telegramTo s.wrapped) s.afterNow.nowValue } := by
  have ht : Memory.bytes (encodeInto s.cfg.lge (busAddress (s.addrAt s.wrapped))
      (s.slave s.wrapped).pkw (s.slave s.wrapped).pzd s.txbuf) frameLen = s.telegramTo s.wrapped := by
    rw [bytes_encodeInto hw]; rfl
  have h2 : s.nowIn.drop 2 = s.nowIn.tail.tail := by
    rcases s.nowIn with _ | ⟨_, _ | ⟨_, _⟩⟩ <;> rfl
  have h3 : s.draws + (2 - s.nowIn.length) =
      if s.nowIn.tail.isEmpty then (if s.nowIn.isEmpty then s.draws + 1 else s.draws) + 1
      else if s.nowIn.isEmpty then s.draws + 1 else s.draws := by
    rcases s.nowIn with _ | ⟨_, _ | ⟨_, _⟩⟩ <;> simp
  rw [State.transmit_eq, State.selected_eq, h2, h3, ← State.abandoned_decide h, ← ht,
    show ∀ (l : List Event) (x : Event) m, l ++ x :: m = (l ++ [x]) ++ m by simp]
  rfl

theorem State.Inv.wrapped_lt {s : State} (hi : s.Inv) (hc : s.configured = true) : s.wrapped < s.count := by
  have := (hi.configuredOk hc).1
  have := hi.cursorBound
  unfold State.wrapped
  split <;> omega

theorem State.Inv.count_le {s : State} (hi : s.Inv) : s.count ≤ s.slaves.length := by
  rw [hi.slavesLength]; exact hi.countBound

/-- `SEND` with its gate ending completes. -/
theorem exec_send_ends {s : State} (hi : s.Inv) (hc : s.configured = true) (hw : s.windowOpen = false)
    (h : s.gateEnds) : exec .send s = .next ((s.selected.transmit.toSeq .idle).respond rcOk 0#16) := by
  show execSend s = _
  have hp : s.sendPhase = true := by simp [State.sendPhase, hc, hw]
  have hlt : s.wrapped < s.count := hi.wrapped_lt hc
  rw [← State.selected_cursor] at hlt
  unfold execSend sendLoop
  rw [if_pos hp, if_neg ((State.gate_ends_iff s).mpr h), if_pos hlt]
  rfl

/-- `RECEIVE` with the window open completes. -/
theorem exec_receive_open {s : State} (hi : s.Inv) (hw : s.windowOpen = true) :
    exec .receive s = .next (s.receive.respond s.receiveCode 0#16) := by
  obtain ⟨hc, hl, _⟩ := hi.windowPhase hw
  show execReceive s = _
  simp [execReceive, State.receivePhase, hc, hw, hl, done]

/-! ## Every way an operation that does not work on the bus changes the records -/

/-- The kinds of change such an operation makes to the slave records. -/
inductive LocalEffect (s t : State) (i : Instr) : Prop where
  | none (hr : ∀ k, i.requests k = false) (h : t.slaves = s.slaves)
  | setpoint (idx : BitVec 4) (v : Word) (hi : i = .setSetpoint idx v)
      (h : t.slaves = (s.updateInRange idx fun r => { r with setpoint := v }).slaves)
  | setCtl (idx : BitVec 4) (m : Word) (hi : i = .setCtl idx m)
      (h : t.slaves = (s.updateInRange idx fun r => { r with ctl := r.ctl ||| m }).slaves)
  | clrCtl (idx : BitVec 4) (m : Word) (hi : i = .clrCtl idx m)
      (h : t.slaves = (s.updateInRange idx fun r => { r with ctl := r.ctl &&& ~~~m }).slaves)
  | request (idx : BitVec 4) (ak : BitVec 4) (p vhi vlo : Word)
      (hi : (∃ w, i = .reqW idx p w) ∨ ∃ v, i = .reqD idx p v ∨ i = .reqF idx p v)
      (hak : ak = s.cfg.akChwPwe ∨ ak = s.cfg.akChdPwe)
      (h : t.slaves = (s.updateInRange idx (Slave.request (pkeOf ak p) vhi vlo)).slaves)
  | resolve (idx : BitVec 4) (hr : ∀ k, i.requests k = decide (idx.toNat = k))
      (h : t.slaves = (s.updateInRange idx Slave.resolve).slaves)

theorem exec_local {i : Instr} {s t : State} (hb : i.isBus = false) (h : exec i s = .next t) :
    LocalEffect s t i := by
  cases i with
  | configure n margin baud => cases hb
  | send => cases hb
  | receive => cases hb
  | setparamW idx param w => cases hb
  | setparamD idx param v => cases hb
  | setparamF idx param f => cases hb
  | illegalOp0 rest => cases h
  | illegalOpC rest => cases h
  | illegalOpD rest => cases h
  | illegalOpE rest => cases h
  | illegalOpF rest => cases h
  | encode a k z => cases h; exact .none (fun _ => rfl) rfl
  | decode bytes => cases h; exact .none (fun _ => rfl) rfl
  | bcc buf len => cases h; exact .none (fun _ => rfl) rfl
  | noTask => cases h; exact .none (fun _ => rfl) rfl
  | getActual idx => cases h; exact .none (fun _ => rfl) (by unfold State.answer; split <;> rfl)
  | chkStatus idx m => cases h; exact .none (fun _ => rfl) (by unfold State.answer; split <;> rfl)
  | setSetpoint idx v => cases h; exact .setpoint idx v rfl rfl
  | setCtl idx m => cases h; exact .setCtl idx m rfl rfl
  | clrCtl idx m => cases h; exact .clrCtl idx m rfl rfl
  | reqW idx p w => cases h; exact .request idx _ p _ _ (.inl ⟨w, rfl⟩) (.inl rfl) rfl
  | reqD idx p v => cases h; exact .request idx _ p _ _ (.inr ⟨v, .inl rfl⟩) (.inr rfl) rfl
  | reqF idx p v => cases h; exact .request idx _ p _ _ (.inr ⟨v, .inr rfl⟩) (.inr rfl) rfl
  | _ => cases h; exact .resolve _ (fun _ => rfl) rfl

/-- The kind of an operation on the bus. -/
theorem Instr.isBus_cases {i : Instr} (h : i.isBus = true) (c : Config) :
    (∃ n margin baud, i = .configure n margin baud) ∨ i = .send ∨ i = .receive ∨
      ∃ idx pke vhi vlo, IsSetparam c i idx pke vhi vlo := by
  cases i with
  | configure n margin baud => exact .inl ⟨n, margin, baud, rfl⟩
  | send => exact .inr (.inl rfl)
  | receive => exact .inr (.inr (.inl rfl))
  | setparamW idx p w => exact .inr (.inr (.inr ⟨_, _, _, _, .word idx p w⟩))
  | setparamD idx p v => exact .inr (.inr (.inr ⟨_, _, _, _, .dword idx p v⟩))
  | setparamF idx p v => exact .inr (.inr (.inr ⟨_, _, _, _, .float idx p v⟩))
  | _ => cases h

/-! ## The sequencer's phase and the responses take no part in a scan -/

@[simp] theorem State.receiveCode_toSeq (s : State) (q : Seq) : (s.toSeq q).receiveCode = s.receiveCode :=
  rfl

@[simp] theorem State.receiveCode_respond (s : State) (c : Code) (v : Word) :
    (s.respond c v).receiveCode = s.receiveCode := rfl

theorem State.receive_toSeq (s : State) (q : Seq) : (s.toSeq q).receive = s.receive.toSeq q := by
  rw [State.receive_eq, State.receive_eq]; rfl

theorem State.receive_respond (s : State) (c : Code) (v : Word) :
    (s.respond c v).receive = s.receive.respond c v := by
  rw [State.receive_eq, State.receive_eq]; rfl

theorem State.scanStart_toSeq (s : State) (q : Seq) :
    (s.toSeq q).selected.transmit = s.selected.transmit.toSeq q := by
  rw [State.transmit_eq, State.transmit_eq]; rfl

theorem State.scan_toSeq (s : State) (q : Seq) : (s.toSeq q).scan = s.scan.toSeq q := by
  unfold State.scan
  rw [State.scanStart_toSeq, State.receive_toSeq]

theorem State.scanCode_toSeq (s : State) (q : Seq) : (s.toSeq q).scanCode = s.scanCode := by
  unfold State.scanCode
  rw [State.scanStart_toSeq, State.receiveCode_toSeq]

theorem paramLoop_toSeq (s : State) (idx : BitVec 4) (q : Seq) :
    paramLoop idx (s.toSeq q) = paramLoop idx s := by
  have h1 : (s.toSeq q).gate = s.gate := rfl
  have h2 : (s.toSeq q).afterGate = s.afterGate.toSeq q := rfl
  have h3 : (s.toSeq q).selected.cursor = s.selected.cursor := rfl
  have h4 : ∀ (u : State) (p : Seq), (u.toSeq q).toSeq p = u.toSeq p := fun _ _ => rfl
  unfold paramLoop
  rw [h1, h2, h3, State.scan_toSeq, State.scanCode_toSeq, h4, h4, h4]
  rfl

/-- What a scan after its gate writes (R174 to R182). -/
theorem State.scan_eq {s : State} (h : s.gateEnds) (hw : Memory.wf s.txbuf = true) : s.scan =
    { s with
      slaves := s.scan.slaves, cursor := s.wrapped + 1, windowOpen := false, de := true
      txbuf := encodeInto s.cfg.lge (busAddress (s.addrAt s.wrapped)) (s.slave s.wrapped).pkw
        (s.slave s.wrapped).pzd s.txbuf
      rxbuf := Memory.writeAll s.rxbuf 0 s.afterNow.afterNow.rxBytes
      nextSend := s.afterNow.nowValue + s.period
      gateAbandoned := s.gateAbandoned || decide (s.nowValue < s.nextSend)
      nowIn := s.nowIn.drop 2, rxIn := s.rxIn.drop 1
      draws := s.draws + (2 - s.nowIn.length) + (1 - s.rxIn.length)
      trace := s.trace ++ .now s.nowValue ::
        s.sendEvents (s.telegramTo s.wrapped) s.afterNow.nowValue
        ++ [.rxRead s.afterNow.afterNow.rxBytes, .de true] } := by
  have key : ∀ (u : State), u.receive = { u with
      slaves := u.receive.slaves, rxIn := u.rxIn.drop 1, draws := u.draws + (1 - u.rxIn.length)
      rxbuf := Memory.writeAll u.rxbuf 0 u.rxBytes, trace := u.trace ++ [.rxRead u.rxBytes, .de true]
      de := true, cursor := u.cursor + 1, windowOpen := false } := by
    intro u
    have hd : u.draws + (1 - u.rxIn.length) = if u.rxIn.isEmpty then u.draws + 1 else u.draws := by
      rcases u.rxIn with _ | ⟨_, _⟩ <;> simp
    have hr : u.rxIn.drop 1 = u.rxIn.tail := by simp
    rw [hd, hr, State.receive_eq]
  have hb : s.selected.transmit.rxBytes = s.afterNow.afterNow.rxBytes := State.scanStart_rxBytes s
  unfold State.scan
  rw [key, hb, State.scanStart_eq h hw]

/-- The code of a scan whose frame is accepted from a `Pending` slave (R134, R180). -/
theorem State.scanCode_accepted {s : State} (hw : Memory.wf s.rxbuf = true)
    (hp : (s.slave s.wrapped).pending = true)
    (hf : FrameFrom s.cfg (s.addrAt s.wrapped) s.afterNow.afterNow.rxBytes) :
    s.scanCode = ackCodeOf s.cfg s.afterNow.afterNow.rxBytes := by
  classical
  have ha : s.selected.transmit.accepted = some (extractTelegram s.afterNow.afterNow.rxBytes) := by
    rw [State.accepted_eq (by simpa using hw)]
    simp only [State.scanStart_cfg, State.scanStart_addrAt, State.scanStart_cursor,
      State.scanStart_rxBytes]
    rw [if_pos hf]
  unfold State.scanCode State.receiveCode
  rw [ha]
  simp only [State.scanStart_slave, State.scanStart_cursor, State.scanStart_cfg, hp, if_true]
  exact resolveCode_extract _ _

/-- Such an operation fills `TXBUF` with a telegram or leaves it. -/
theorem exec_other_txbuf {i : Instr} {s t : State} (hb : i.isBus = false) (h : exec i s = .next t) :
    t.txbuf = s.txbuf ∨ ∃ a k z, t.txbuf = encodeInto s.cfg.lge a k z s.txbuf := by
  have hu : ∀ (idx : BitVec 4) (f : Slave → Slave), (s.updateInRange idx f).txbuf = s.txbuf := by
    intro idx f; unfold State.updateInRange; split <;> rfl
  have hr : ∀ (idx : BitVec 4) (pke vhi vlo : Word), (s.resolveAt idx pke vhi vlo).txbuf = s.txbuf :=
    fun _ _ _ _ => hu _ _
  have ha : ∀ (idx : BitVec 4) (v : Word), (s.answer idx v).txbuf = s.txbuf := by
    intro idx v; unfold State.answer; split <;> rfl
  cases i with
  | configure n margin baud => cases hb
  | send => cases hb
  | receive => cases hb
  | setparamW idx param w => cases hb
  | setparamD idx param v => cases hb
  | setparamF idx param f => cases hb
  | illegalOp0 rest => cases h
  | illegalOpC rest => cases h
  | illegalOpD rest => cases h
  | illegalOpE rest => cases h
  | illegalOpF rest => cases h
  | encode a k z => cases h; exact .inr ⟨a, k, z, rfl⟩
  | decode bytes => cases h; exact .inl rfl
  | bcc buf len => cases h; exact .inl rfl
  | noTask => cases h; exact .inl rfl
  | getActual idx => cases h; exact .inl (ha _ _)
  | chkStatus idx m => cases h; exact .inl (ha _ _)
  | setSetpoint idx v => cases h; exact .inl (hu _ _)
  | setCtl idx m => cases h; exact .inl (hu _ _)
  | clrCtl idx m => cases h; exact .inl (hu _ _)
  | reqW idx p w => cases h; exact .inl (hu _ _)
  | reqD idx p v => cases h; exact .inl (hu _ _)
  | reqF idx p v => cases h; exact .inl (hu _ _)
  | _ => cases h; exact .inl (hr _ _ _ _)

/-! ## What the trace and a pending record hold after a transition with one `SEND` in it -/

/-- The telegram to a `Pending` slave carries its request words (R176). -/
theorem State.telegramTo_pending {s : State} {k : Nat} (h : (s.slave k).pending = true) :
    frameWordAt (s.telegramTo k) 3 = (s.slave k).pke ∧ frameWordAt (s.telegramTo k) 5 = (s.slave k).ind ∧
    frameWordAt (s.telegramTo k) 7 = (s.slave k).vhi ∧ frameWordAt (s.telegramTo k) 9 = (s.slave k).vlo := by
  unfold State.telegramTo
  simp only [h, if_true]
  exact ⟨be16_hi8_lo8 _, be16_hi8_lo8 _, be16_hi8_lo8 _, be16_hi8_lo8 _⟩

/-- A step inside a `SEND` writes the telegram of the slave whose turn it is, once its gate ends. -/
theorem sendLoop_txWrites {s t : State} (hw : Memory.wf s.txbuf = true) (h : sendLoop s = .next t) :
    (¬ s.gateEnds → txWrites (t.trace.drop s.trace.length) = []) ∧
    (s.gateEnds → txWrites (t.trace.drop s.trace.length) = [s.telegramTo s.wrapped]) := by
  rcases sendLoop_next h with ⟨hg, rfl⟩ | ⟨hg, _, rfl⟩
  · refine ⟨fun _ => ?_, fun h' => absurd h' ((State.gate_waiting_iff s).mp hg)⟩
    show txWrites ((s.trace ++ [Event.now s.nowValue]).drop _) = _
    rw [List.drop_left]; rfl
  · have hg := (State.gate_ends_iff s).mp hg
    refine ⟨fun h' => absurd hg h', fun _ => ?_⟩
    rw [State.respond_trace, State.toSeq_trace, State.scanStart_eq hg hw]
    dsimp only
    rw [List.drop_left]; rfl

/-- So does a step inside a `SETPARAM_*`. -/
theorem paramLoop_txWrites {s t : State} {idx : BitVec 4} (hw : Memory.wf s.txbuf = true)
    (h : paramLoop idx s = .next t) :
    (¬ s.gateEnds → txWrites (t.trace.drop s.trace.length) = []) ∧
    (s.gateEnds → txWrites (t.trace.drop s.trace.length) = [s.telegramTo s.wrapped]) := by
  have scan (hg : s.gateEnds) : txWrites (s.scan.trace.drop s.trace.length) = [s.telegramTo s.wrapped] := by
    rw [State.scan_eq hg hw]
    dsimp only
    rw [List.append_assoc, List.drop_left]; rfl
  rcases paramLoop_next h with ⟨hg, rfl⟩ | ⟨hg, _, _, rfl⟩ | ⟨hg, _, _, rfl⟩
  · refine ⟨fun _ => ?_, fun h' => absurd h' ((State.gate_waiting_iff s).mp hg)⟩
    show txWrites ((s.trace ++ [Event.now s.nowValue]).drop _) = _
    rw [List.drop_left]; rfl
  · have hg := (State.gate_ends_iff s).mp hg
    exact ⟨fun h' => absurd hg h', fun _ => by rw [State.toSeq_trace]; exact scan hg⟩
  · have hg := (State.gate_ends_iff s).mp hg
    exact ⟨fun h' => absurd hg h', fun _ => by rw [State.respond_trace, State.toSeq_trace]; exact scan hg⟩

/-- A step inside a `SETPARAM_*` leaves the record of a slave none of whose frames its scan accepts. -/
theorem paramLoop_keeps {s t : State} {idx : BitVec 4} {k : Nat} (hw : Memory.wf s.rxbuf = true)
    (h : paramLoop idx s = .next t) (hn : ¬ s.scanAccepts k) : t.slave k = s.slave k := by
  rcases paramLoop_slave hw h k with e | ⟨h1, h2, _⟩
  · exact e
  · have hg : ¬ s.gateEnds := fun hg => hn ⟨hg, h2.symm, by rw [h2]; exact h1⟩
    rcases paramLoop_next h with ⟨_, rfl⟩ | ⟨g, _⟩ | ⟨g, _⟩
    · rfl
    · exact absurd ((State.gate_ends_iff s).mp g) hg
    · exact absurd ((State.gate_ends_iff s).mp g) hg

/-- Checking a longer trace goes on from the shorter one. -/
theorem periodCheck_append (period bound : Tick) (a b : List Event) :
    periodCheck period bound (a ++ b) = b.foldl (PeriodCheck.after period bound) (periodCheck period bound a) := by
  unfold periodCheck; rw [List.foldl_append]

/-! ## Every way a step answers -/

theorem step_next {s t : State} (h : step s = .next t) :
    (s.resetLine = true ∧ t = s.hardwareReset) ∨
    (s.resetLine = false ∧ s.seq = .sendGate ∧ sendLoop s = .next t) ∨
    (∃ idx, s.resetLine = false ∧ s.seq = .paramGate idx ∧ paramLoop idx s = .next t) ∨
    (s.resetLine = false ∧ s.seq = .idle ∧ s.port = [] ∧ t = s) ∨
    (∃ e rest i, s.resetLine = false ∧ s.seq = .idle ∧ s.port = e :: rest ∧ decode e.word = .ok i ∧
      exec i (s.accept e rest) = .next t) := by
  unfold step at h
  cases hr : s.resetLine with
  | true => rw [hr] at h; simp only [if_true] at h; cases h; exact .inl ⟨rfl, rfl⟩
  | false =>
    rw [hr] at h
    simp only [Bool.false_eq_true, if_false] at h
    cases hq : s.seq with
    | sendGate => rw [hq] at h; exact .inr (.inl ⟨rfl, rfl, h⟩)
    | paramGate idx => rw [hq] at h; exact .inr (.inr (.inl ⟨idx, rfl, rfl, h⟩))
    | idle =>
      rw [hq] at h
      cases hp : s.port with
      | nil => simp only [fetch, hp] at h; cases h; exact .inr (.inr (.inr (.inl ⟨rfl, rfl, rfl, rfl⟩)))
      | cons e rest =>
        simp only [fetch, hp] at h
        cases hd : decode e.word with
        | ok i => rw [hd] at h; exact .inr (.inr (.inr (.inr ⟨e, rest, i, rfl, rfl, rfl, hd, h⟩)))
        | error r => rw [hd] at h; cases h

end Sys2Proof.Machine
end

