-- ==== Sys2Proof/Laws/PerInstr.lean ====
section
/-! SUPPORT. The family Encodable: the word of every well-formed operation has a legal form, so that a
word of the port is never outside what its encoding allows. -/

namespace Sys2Proof

/-- The form each encoding allows: a CMD word with a legal opcode has `rsv = 0` (R92), a FRAME is 16
bytes (R80), a PKW word has a 4-bit slave index and a defined selector (log 10). -/
def PortWord.legalForm : PortWord → Prop
  | .cmd w => 1 ≤ (cmdOp w).toNat → (cmdOp w).toNat ≤ 11 → cmdRsv w = 0#8
  | .frame bytes _ => bytes.length = 16
  | .pkw _ idx sel => idx.toNat < 16 ∧ sel.toNat ≤ 2

end Sys2Proof

namespace Sys2Proof.Laws.Encodable

/-- A well-formed operation's word has a legal form. -/
def Statement (i : Instr) : Prop := i.wellFormed = true → (encode i).legalForm

theorem configure (n : BitVec 4) (margin : Word) (baud : DWord) : Statement (.configure n margin baud) :=
  fun _ _ _ => cmdRsv_mkCmd _ _ _ _

theorem send : Statement .send :=
  fun _ _ _ => cmdRsv_mkCmd _ _ _ _

theorem receive : Statement .receive :=
  fun _ _ _ => cmdRsv_mkCmd _ _ _ _

theorem setparamW (idx : BitVec 4) (param w : Word) : Statement (.setparamW idx param w) :=
  fun _ _ _ => cmdRsv_mkCmd _ _ _ _

theorem setparamD (idx : BitVec 4) (param : Word) (v : DWord) : Statement (.setparamD idx param v) :=
  fun _ _ _ => cmdRsv_mkCmd _ _ _ _

theorem setparamF (idx : BitVec 4) (param : Word) (f : DWord) : Statement (.setparamF idx param f) :=
  fun _ _ _ => cmdRsv_mkCmd _ _ _ _

theorem setSetpoint (idx : BitVec 4) (setpoint : Word) : Statement (.setSetpoint idx setpoint) :=
  fun _ _ _ => cmdRsv_mkCmd _ _ _ _

theorem setCtl (idx : BitVec 4) (mask : Word) : Statement (.setCtl idx mask) :=
  fun _ _ _ => cmdRsv_mkCmd _ _ _ _

theorem clrCtl (idx : BitVec 4) (mask : Word) : Statement (.clrCtl idx mask) :=
  fun _ _ _ => cmdRsv_mkCmd _ _ _ _

theorem getActual (idx : BitVec 4) : Statement (.getActual idx) :=
  fun _ _ _ => cmdRsv_mkCmd _ _ _ _

theorem chkStatus (idx : BitVec 4) (mask : Word) : Statement (.chkStatus idx mask) :=
  fun _ _ _ => cmdRsv_mkCmd _ _ _ _

theorem illegalOp0 (rest : BitVec 60) : Statement (.illegalOp0 rest) :=
  fun _ => by simp [encode, PortWord.legalForm]

theorem illegalOpC (rest : BitVec 60) : Statement (.illegalOpC rest) :=
  fun _ => by simp [encode, PortWord.legalForm]

theorem illegalOpD (rest : BitVec 60) : Statement (.illegalOpD rest) :=
  fun _ => by simp [encode, PortWord.legalForm]

theorem illegalOpE (rest : BitVec 60) : Statement (.illegalOpE rest) :=
  fun _ => by simp [encode, PortWord.legalForm]

theorem illegalOpF (rest : BitVec 60) : Statement (.illegalOpF rest) :=
  fun _ => by simp [encode, PortWord.legalForm]

theorem encode (address : Byte) (k : Pkw) (z : Pzd) : Statement (.encode address k z) :=
  fun _ => rfl

theorem decode (bytes : List Byte) : Statement (.decode bytes) :=
  fun h => beq_iff_eq.mp h

theorem bcc (buf : List Byte) (len : Nat) : Statement (.bcc buf len) :=
  fun h => by
    simp only [Instr.wellFormed, Bool.and_eq_true, beq_iff_eq] at h; exact h.1

theorem noTask : Statement .noTask :=
  fun _ => ⟨by decide, by decide⟩

theorem reqW (idx : BitVec 4) (param w : Word) : Statement (.reqW idx param w) :=
  fun _ =>
    ⟨index_small idx, by decide⟩

theorem reqD (idx : BitVec 4) (param : Word) (v : DWord) : Statement (.reqD idx param v) :=
  fun _ =>
    ⟨index_small idx, by decide⟩

theorem reqF (idx : BitVec 4) (param : Word) (f : DWord) : Statement (.reqF idx param f) :=
  fun _ =>
    ⟨index_small idx, by decide⟩

theorem resolveNoResp (idx : BitVec 4) (low : BitVec 12) (vhi vlo : Word) : Statement (.resolveNoResp idx low vhi vlo) :=
  fun _ =>
    ⟨index_small idx, by decide⟩

theorem resolveOther1 (idx : BitVec 4) (low : BitVec 12) (vhi vlo : Word) : Statement (.resolveOther1 idx low vhi vlo) :=
  fun _ =>
    ⟨index_small idx, by decide⟩

theorem resolveOther2 (idx : BitVec 4) (low : BitVec 12) (vhi vlo : Word) : Statement (.resolveOther2 idx low vhi vlo) :=
  fun _ =>
    ⟨index_small idx, by decide⟩

theorem resolveOther3 (idx : BitVec 4) (low : BitVec 12) (vhi vlo : Word) : Statement (.resolveOther3 idx low vhi vlo) :=
  fun _ =>
    ⟨index_small idx, by decide⟩

theorem resolveOther4 (idx : BitVec 4) (low : BitVec 12) (vhi vlo : Word) : Statement (.resolveOther4 idx low vhi vlo) :=
  fun _ =>
    ⟨index_small idx, by decide⟩

theorem resolveOther5 (idx : BitVec 4) (low : BitVec 12) (vhi vlo : Word) : Statement (.resolveOther5 idx low vhi vlo) :=
  fun _ =>
    ⟨index_small idx, by decide⟩

theorem resolveOther6 (idx : BitVec 4) (low : BitVec 12) (vhi vlo : Word) : Statement (.resolveOther6 idx low vhi vlo) :=
  fun _ =>
    ⟨index_small idx, by decide⟩

theorem resolveCantExecute (idx : BitVec 4) (low : BitVec 12) (vhi vlo : Word) : Statement (.resolveCantExecute idx low vhi vlo) :=
  fun _ =>
    ⟨index_small idx, by decide⟩

theorem resolveNoRights (idx : BitVec 4) (low : BitVec 12) (vhi vlo : Word) : Statement (.resolveNoRights idx low vhi vlo) :=
  fun _ =>
    ⟨index_small idx, by decide⟩

theorem resolveOther9 (idx : BitVec 4) (low : BitVec 12) (vhi vlo : Word) : Statement (.resolveOther9 idx low vhi vlo) :=
  fun _ =>
    ⟨index_small idx, by decide⟩

theorem resolveOtherA (idx : BitVec 4) (low : BitVec 12) (vhi vlo : Word) : Statement (.resolveOtherA idx low vhi vlo) :=
  fun _ =>
    ⟨index_small idx, by decide⟩

theorem resolveOtherB (idx : BitVec 4) (low : BitVec 12) (vhi vlo : Word) : Statement (.resolveOtherB idx low vhi vlo) :=
  fun _ =>
    ⟨index_small idx, by decide⟩

theorem resolveOtherC (idx : BitVec 4) (low : BitVec 12) (vhi vlo : Word) : Statement (.resolveOtherC idx low vhi vlo) :=
  fun _ =>
    ⟨index_small idx, by decide⟩

theorem resolveOtherD (idx : BitVec 4) (low : BitVec 12) (vhi vlo : Word) : Statement (.resolveOtherD idx low vhi vlo) :=
  fun _ =>
    ⟨index_small idx, by decide⟩

theorem resolveOtherE (idx : BitVec 4) (low : BitVec 12) (vhi vlo : Word) : Statement (.resolveOtherE idx low vhi vlo) :=
  fun _ =>
    ⟨index_small idx, by decide⟩

theorem resolveOtherF (idx : BitVec 4) (low : BitVec 12) (vhi vlo : Word) : Statement (.resolveOtherF idx low vhi vlo) :=
  fun _ =>
    ⟨index_small idx, by decide⟩

end Sys2Proof.Laws.Encodable
end

