-- ==== Sys2Proof/Tests/Slice0.lean ====
section
/-! SUPPORT. Tests with expected results from spec/95_test_vectors.md (the vector's id stands in each
comment), smoke tests of WellFormed, words written out from spec/30_encoding.md, and for every
obligation with hypotheses a witness that meets them. -/

namespace Sys2Proof.Tests

open Sys2Proof Sys2Proof.Machine

/-! ## Helpers -/

/-- The default valuation with codes of its own in place of the open ones, which cannot be evaluated. -/
def valuation : Config :=
  { Config.default with
    rcCommFail := 100#32, rcCfgTooMany := 101#32, rcCfgNullList := 102#32, rcCfgEmpty := 103#32 }

/-- The block right after reset. -/
def blank : State := State.resetWith valuation

/-- The block after vector G1, with the words of H1 in `S[0]` and its clock answers. -/
def ready : State :=
  { blank with
    configured := true, count := 2, addr := [1#5, 2#5], baud := 38400#32, tChar := 287
    period := 49758, deMode := .output, de := true, trace := [.pinMode, .de true]
    slaves := [{ Slave.reset with ctl := 0x047E#16, setpoint := 0x2000#16 }, Slave.reset]
    nowIn := [1000, 6000] }

/-- `ready` with the window open: vector H1 done, its frame of H2 to come. -/
def opened : State :=
  { ready with
    windowOpen := true, de := false, nextSend := 55758, nowIn := []
    trace := [.pinMode, .de true, .now 1000, .txWrite (ready.telegramTo 0), .de true, .delay 574,
      .de false, .now 6000]
    rxIn := [[0x02#8, 0x0E#8, 0x01#8, 0#8, 0#8, 0#8, 0#8, 0#8, 0#8, 0#8, 0#8, 0xFA#8, 0x31#8, 0#8, 0#8,
      0xC6#8]] }

/-- The request of vector W1. -/
def requested : Slave :=
  ⟨true, 0x243A#16, 0#16, 0#16, 0x0010#16, 0x047E#16, 0x2000#16, 0#16, 0#16⟩

/-- Frame K1. -/
def frameK1 : List Byte :=
  [0x02#8, 0x0E#8, 0x01#8, 0x24#8, 0x3A#8, 0#8, 0#8, 0#8, 0#8, 0#8, 0x10#8, 0xFA#8, 0x31#8, 0#8, 0#8,
    0xC8#8]

/-- A well-formed response from address 1 whose PKE is `hi ++ 0xBC` and whose value-low is `lo`. -/
def answerFrame (hi lo : Byte) : List Byte :=
  let body := [0x02#8, 0x0E#8, 0x01#8, hi, 0xBC#8, 0#8, 0#8, 0#8, 0#8, 0#8, lo, 0xFA#8, 0x31#8, 0#8, 0#8]
  body ++ [xorOf body]

/-- Vector H13: `S[0]` pending with W1 before H1. -/
def openedPending : State :=
  { opened with slaves := [requested, Slave.reset], rxIn := [frameK1] }

/-- Inside a `SETPARAM_W` for slave 0 whose turn it is, K1 to come. -/
def scanning : State :=
  { ready with slaves := [requested, Slave.reset], seq := .paramGate 0#4, rxIn := [frameK1] }

/-- `p` of the next state; false if there is none. -/
def nextIs (o : Host.Outcome State Fault Refusal) (p : State → Bool) : Bool :=
  match o with
  | .next t => p t
  | .fault _ => false
  | .refused _ => false

/-- The refusal, if the outcome is one. -/
def refusal (o : Host.Outcome State Fault Refusal) : Option Refusal :=
  match o with
  | .next _ => none
  | .fault _ => none
  | .refused r => some r

theorem next_of {o : Host.Outcome State Fault Refusal} {p : State → Prop} [DecidablePred p]
    (h : nextIs o (fun t => decide (p t)) = true) : ∃ t, o = .next t ∧ p t := by
  cases o with
  | next t => exact ⟨t, rfl, by simpa [nextIs] using h⟩
  | fault r => cases h
  | refused r => cases h

theorem refused_of {o : Host.Outcome State Fault Refusal} {r : Refusal}
    (h : refusal o = some r) : o = .refused r := by
  cases o with
  | next t => cases h
  | fault _ => cases h
  | refused r' => cases h; rfl

/-- The invariant of a state written out, by evaluation. -/
theorem inv_of (s : State)
    (h1 : s.cfg.Valid ∧ s.slaves.length = s.cfg.maxSlaves ∧ s.addr.length = s.cfg.maxSlaves ∧
      s.count ≤ s.cfg.maxSlaves ∧ s.cursor ≤ s.count)
    (h2 : (s.windowOpen = true → s.configured = true ∧ s.cursor < s.count ∧ s.de = false) ∧
      (s.configured = true → s.windowOpen = false → s.de = true) ∧
      (s.configured = true → 1 ≤ s.count ∧ s.deMode = .output))
    (h3 : s.configured = false → s.count = 0 ∧ s.cursor = 0 ∧ s.windowOpen = false ∧ s.nextSend = 0 ∧
      ∀ i, i < s.slaves.length → s.slave i = Slave.reset)
    (h4 : ∀ i, i < s.slaves.length → (s.slave i).pending = true → i < s.count ∧
      (s.slave i).ind = 0#16 ∧
      (akOf (s.slave i).pke = s.cfg.akChwPwe ∨ akOf (s.slave i).pke = s.cfg.akChdPwe) ∧
      (s.slave i).pke.extractLsb' 11 1 = 0#1)
    (h5 : Memory.wf s.txbuf = true ∧ Memory.wf s.rxbuf = true)
    (h6 : (s.seq = .sendGate → s.sendPhase = true) ∧ ∀ idx, s.seq = .paramGate idx →
      s.sendPhase = true ∧ s.inRange idx = true ∧ (s.slave idx.toNat).pending = true) : s.Inv := by
  have hrec : ∀ i, (s.slave i).pending = true → i < s.slaves.length := by
    intro i hp
    by_contra hge
    rw [State.slave_beyond s (by omega)] at hp
    cases hp
  refine ⟨h1.1, h1.2.1, h1.2.2.1, h1.2.2.2.1, h1.2.2.2.2, h2.1, h2.2.1, h2.2.2, ?_, ?_, h5.1, h5.2,
    h6.1, h6.2⟩
  · intro hc
    obtain ⟨a, b, c, d, e⟩ := h3 hc
    refine ⟨a, b, c, d, fun i => ?_⟩
    by_cases hi : i < s.slaves.length
    · exact e i hi
    · exact State.slave_beyond s (by omega)
  · intro i
    exact ⟨fun hp => (h4 i (hrec i hp) hp).1, fun hp => (h4 i (hrec i hp) hp).2.1,
      fun hp => (h4 i (hrec i hp) hp).2.2.1, fun hp => (h4 i (hrec i hp) hp).2.2.2⟩

theorem inv_blank : blank.Inv := inv_of _ (by decide) (by decide) (by decide) (by decide) (by decide)
  (by decide)
theorem inv_ready : ready.Inv := inv_of _ (by decide) (by decide) (by decide) (by decide) (by decide)
  (by decide)
theorem inv_opened : opened.Inv := inv_of _ (by decide) (by decide) (by decide) (by decide)
  (by decide) (by decide)
theorem inv_openedPending : openedPending.Inv := inv_of _ (by decide) (by decide) (by decide)
  (by decide) (by decide) (by decide)
theorem inv_scanning : scanning.Inv := inv_of _ (by decide) (by decide) (by decide) (by decide)
  (by decide) (by decide)

/-! ## WellFormed: an ill-formed term for each check -/

theorem test_wellFormed_address : (Instr.encode 32#8 ⟨0, 0, 0, 0⟩ ⟨0, 0⟩).wellFormed = false := by decide
theorem test_wellFormed_decode_length : (Instr.decode (List.replicate 15 0#8)).wellFormed = false := by
  decide
theorem test_wellFormed_bcc_length : (Instr.bcc (List.replicate 17 0#8) 15).wellFormed = false := by decide
theorem test_wellFormed_bcc_range : (Instr.bcc (List.replicate 16 0#8) 14).wellFormed = false := by decide
theorem test_wellFormed_reqW : (Instr.reqW 0#4 0x0800#16 0#16).wellFormed = false := by decide
theorem test_wellFormed_reqD : (Instr.reqD 0#4 0x1000#16 0#32).wellFormed = false := by decide
theorem test_wellFormed_reqF : (Instr.reqF 0#4 0x8000#16 0#32).wellFormed = false := by decide

/-! ## Decoding: a word of every constructor, from R80, R85 to R87, R92, R93 and R99 -/

/-- CMD words of sections 7 and 8 and of R93. -/
theorem test_decode_commands :
    decode (.cmd 0x1200000000009600#64) = .ok (.configure 2#4 0#16 38400#32) ∧
    decode (.cmd 0x2000000000000000#64) = .ok .send ∧
    decode (.cmd 0x3F00FFFFFFFFFFFF#64) = .ok .receive ∧
    decode (.cmd 0x410002BCABCD0005#64) = .ok (.setparamW 1#4 700#16 5#16) ∧
    decode (.cmd 0x5000000512345678#64) = .ok (.setparamD 0#4 5#16 0x12345678#32) ∧
    decode (.cmd 0x6000043A42480000#64) = .ok (.setparamF 0#4 0x043A#16 0x42480000#32) ∧
    decode (.cmd 0x7100100000000000#64) = .ok (.setSetpoint 1#4 0x1000#16) ∧
    decode (.cmd 0x8000047E00000000#64) = .ok (.setCtl 0#4 0x047E#16) ∧
    decode (.cmd 0x9100000100000000#64) = .ok (.clrCtl 1#4 1#16) ∧
    decode (.cmd 0xAF00000000000000#64) = .ok (.getActual 15#4) ∧
    decode (.cmd 0xB100040000000000#64) = .ok (.chkStatus 1#4 0x0400#16) := by decide

/-- The refused words of section 8, and the other illegal opcodes. -/
theorem test_decode_illegal :
    decode (.cmd 0#64) = .ok (.illegalOp0 0#60) ∧
    decode (.cmd 0xC000000000000000#64) = .ok (.illegalOpC 0#60) ∧
    decode (.cmd 0xD000000000000001#64) = .ok (.illegalOpD 1#60) ∧
    decode (.cmd 0xEFFFFFFFFFFFFFFF#64) = .ok (.illegalOpE (BitVec.allOnes 60)) ∧
    decode (.cmd 0xF001000000000000#64) = .ok (.illegalOpF 0x001000000000000#60) ∧
    decode (.cmd 0x2001000000000000#64) = .error .reservedBits := by decide

/-- Frame E5 as an `ENCODE` word, frame K2 as a `DECODE` word, frame K4 as a `BCC` word. -/
theorem test_decode_frames :
    decode (.frame [0x02#8, 0x0E#8, 0x1F#8, 0x12#8, 0x34#8, 0x56#8, 0x78#8, 0x9A#8, 0xBC#8, 0xDE#8, 0xF0#8,
      0x0F#8, 0x1E#8, 0x2D#8, 0x3C#8, 0x13#8] 0#2)
      = .ok (.encode 31#8 ⟨0x1234#16, 0x5678#16, 0x9ABC#16, 0xDEF0#16⟩ ⟨0x0F1E#16, 0x2D3C#16⟩) ∧
    decode (.frame (0x02#8 :: 0x0E#8 :: 0xE1#8 :: frameK1.drop 3) 0#2)
      = .ok (.decode (0x02#8 :: 0x0E#8 :: 0xE1#8 :: frameK1.drop 3)) ∧
    decode (.frame (0x03#8 :: frameK1.drop 1) 0#2) = .ok (.bcc (0x03#8 :: frameK1.drop 1) 15) ∧
    decode (.frame (frameK1.take 15) 0#2) = .error .noMicroOp := by decide

/-- Requests W1, W6, W8 and the idle request. -/
theorem test_decode_requests :
    decode (.pkw ⟨0#16, 0#16, 0#16, 0#16⟩ 0#16 0#16) = .ok .noTask ∧
    decode (.pkw ⟨0x243A#16, 0#16, 0#16, 0x0010#16⟩ 0#16 0#16) = .ok (.reqW 0#4 0x043A#16 0x0010#16) ∧
    decode (.pkw ⟨0x3005#16, 0#16, 0x1234#16, 0x5678#16⟩ 0#16 0#16)
      = .ok (.reqD 0#4 5#16 0x12345678#32) ∧
    decode (.pkw ⟨0x343A#16, 0#16, 0x4248#16, 0#16⟩ 0#16 2#16)
      = .ok (.reqF 0#4 0x043A#16 0x42480000#32) := by decide

/-- The ack nibbles of R87. -/
theorem test_decode_resolve_low :
    decode (.pkw ⟨0x02BC#16, 0#16, 0#16, 0#16⟩ 1#16 1#16) = .ok (.resolveNoResp 1#4 0x2BC#12 0#16 0#16) ∧
    decode (.pkw ⟨0x143A#16, 0#16, 0#16, 0x0010#16⟩ 0#16 0#16)
      = .ok (.resolveOther1 0#4 0x43A#12 0#16 0x0010#16) ∧
    decode (.pkw ⟨0x243A#16, 0#16, 0#16, 0x0010#16⟩ 0#16 1#16)
      = .ok (.resolveOther2 0#4 0x43A#12 0#16 0x0010#16) ∧
    decode (.pkw ⟨0x3005#16, 0#16, 0#16, 1#16⟩ 0#16 1#16) = .ok (.resolveOther3 0#4 0x005#12 0#16 1#16) ∧
    decode (.pkw ⟨0x4001#16, 0#16, 2#16, 3#16⟩ 15#16 0#16) = .ok (.resolveOther4 15#4 1#12 2#16 3#16) ∧
    decode (.pkw ⟨0x5001#16, 0#16, 2#16, 3#16⟩ 0#16 0#16) = .ok (.resolveOther5 0#4 1#12 2#16 3#16) ∧
    decode (.pkw ⟨0x6001#16, 0#16, 2#16, 3#16⟩ 0#16 0#16) = .ok (.resolveOther6 0#4 1#12 2#16 3#16) ∧
    decode (.pkw ⟨0x7ABC#16, 0#16, 1#16, 0#16⟩ 1#16 0#16)
      = .ok (.resolveCantExecute 1#4 0xABC#12 1#16 0#16) := by decide

theorem test_decode_resolve_high :
    decode (.pkw ⟨0x82BC#16, 0#16, 0#16, 0#16⟩ 1#16 0#16)
      = .ok (.resolveNoRights 1#4 0x2BC#12 0#16 0#16) ∧
    decode (.pkw ⟨0x9001#16, 0#16, 2#16, 3#16⟩ 0#16 0#16) = .ok (.resolveOther9 0#4 1#12 2#16 3#16) ∧
    decode (.pkw ⟨0xA001#16, 0#16, 2#16, 3#16⟩ 0#16 0#16) = .ok (.resolveOtherA 0#4 1#12 2#16 3#16) ∧
    decode (.pkw ⟨0xB001#16, 0#16, 2#16, 3#16⟩ 0#16 0#16) = .ok (.resolveOtherB 0#4 1#12 2#16 3#16) ∧
    decode (.pkw ⟨0xC001#16, 0#16, 2#16, 3#16⟩ 0#16 0#16) = .ok (.resolveOtherC 0#4 1#12 2#16 3#16) ∧
    decode (.pkw ⟨0xD001#16, 0#16, 2#16, 3#16⟩ 0#16 0#16) = .ok (.resolveOtherD 0#4 1#12 2#16 3#16) ∧
    decode (.pkw ⟨0xE001#16, 0#16, 2#16, 3#16⟩ 0#16 0#16) = .ok (.resolveOtherE 0#4 1#12 2#16 3#16) ∧
    decode (.pkw ⟨0xF000#16, 0#16, 0xFFFF#16, 0xFFFF#16⟩ 0#16 0#16)
      = .ok (.resolveOtherF 0#4 0#12 0xFFFF#16 0xFFFF#16) ∧
    decode (.pkw ⟨0xF000#16, 0#16, 0#16, 0#16⟩ 16#16 0#16) = .error .noMicroOp := by decide

/-- Table words: a CMD word, a frame with byte 0 lowest (frame E3), a PKE word of 16 bits. -/
theorem test_decode_table :
    decodeTableWord 64 0x9100000100000000 = some (.clrCtl 1#4 1#16) ∧
    decodeTableWord 128 0x0C000000000000000000000000000E02 = some (.encode 0#8 ⟨0, 0, 0, 0⟩ ⟨0, 0⟩) ∧
    decodeTableWord 16 0x22BC = some (.reqW 0#4 700#16 0#16) ∧
    decodeTableWord 64 0x2001000000000000 = none := by decide

/-! ## One step each -/

/-- W5 through the host's door: the very next step runs the word (the request is out of range before
`CONFIGURE`, so it is placed in `ready`). -/
theorem test_withFetchWord_runs :
    nextIs (step (ready.withFetchWord 16 0x27FF)) (fun t => (t.slave 0).pke == 0x27FF#16 &&
      (t.slave 0).pending && t.port.isEmpty) = true := by decide

/-- G5 through the host's door, right after reset: 0 addresses, but no list is present, so G4 applies. -/
theorem test_withFetchWord_reset :
    nextIs (step (blank.withFetchWord 64 0x1000000000002580))
      (fun t => t.responses == [⟨102#32, 0#16⟩] && !t.configured) = true := by decide

/-- E5 (byte order) and E4 (address bits 7:5 set). -/
theorem test_encode_order :
    nextIs (exec (.encode 31#8 ⟨0x1234#16, 0x5678#16, 0x9ABC#16, 0xDEF0#16⟩ ⟨0x0F1E#16, 0x2D3C#16⟩) blank)
      (fun t => Memory.bytes t.txbuf 16 == [0x02#8, 0x0E#8, 0x1F#8, 0x12#8, 0x34#8, 0x56#8, 0x78#8, 0x9A#8,
        0xBC#8, 0xDE#8, 0xF0#8, 0x0F#8, 0x1E#8, 0x2D#8, 0x3C#8, 0x13#8]) = true := by decide
theorem test_encode_masks :
    nextIs (exec (.encode 0xE3#8 ⟨0xFFFF#16, 0xFFFF#16, 0xFFFF#16, 0xFFFF#16⟩ ⟨0xFFFF#16, 0xFFFF#16⟩) blank)
      (fun t => t.mres == .frame (0x02#8 :: 0x0E#8 :: 0x03#8 :: List.replicate 12 0xFF#8 ++ [0x0F#8]))
      = true := by decide

/-- K2, then K6. -/
theorem test_decode_ok :
    nextIs (exec (.decode [0x02#8, 0x0E#8, 0xE1#8, 0x24#8, 0x3A#8, 0#8, 0#8, 0#8, 0#8, 0#8, 0x10#8, 0xFA#8,
      0x31#8, 0#8, 0#8, 0x28#8]) blank) (fun t => t.mres == .decoded
        (.ok ⟨1#8, ⟨0x243A#16, 0#16, 0#16, 0x0010#16⟩, ⟨0xFA31#16, 0#16⟩⟩)) = true := by decide
theorem test_decode_malformed :
    nextIs (exec (.decode [0x02#8, 0x0E#8, 0x01#8, 0x24#8, 0x3A#8, 0#8, 0#8, 0#8, 0#8, 0#8, 0x90#8, 0xFA#8,
      0x31#8, 0#8, 0#8, 0xC8#8]) blank) (fun t => t.mres == .decoded .malformed) = true := by decide

/-- The example of R110. -/
theorem test_bcc : nextIs (exec (.bcc [0x02#8, 0x0E#8, 0x01#8, 0#8, 0#8, 0#8, 0#8, 0#8, 0#8, 0#8, 0#8, 0x04#8,
    0x7E#8, 0x20#8, 0#8] 15) blank) (fun t => t.mres == .byte 0x57#8) = true := by decide

theorem test_noTask : nextIs (exec .noTask ready) (fun t => t.mres == .words ⟨0, 0, 0, 0⟩) = true := by
  decide

/-- W3, W6, W10. -/
theorem test_reqW : nextIs (exec (.reqW 0#4 3000#16 0xFFFF#16) ready) (fun t =>
    (t.slave 0).pke == 0x23B8#16 && (t.slave 0).vhi == 0#16 && (t.slave 0).vlo == 0xFFFF#16 &&
    (t.slave 0).pending) = true := by decide
theorem test_reqD : nextIs (exec (.reqD 0#4 5#16 0x12345678#32) ready) (fun t =>
    (t.slave 0).pke == 0x3005#16 && (t.slave 0).vhi == 0x1234#16 && (t.slave 0).vlo == 0x5678#16)
    = true := by decide
theorem test_reqF : nextIs (exec (.reqF 0#4 1#16 0x7FC00001#32) ready) (fun t =>
    (t.slave 0).pke == 0x3001#16 && (t.slave 0).vhi == 0x7FC0#16 && (t.slave 0).vlo == 1#16)
    = true := by decide

/-- The code and the bit a `RESOLVE` leaves. -/
def resolved (i : Instr) (c : Code) : Bool :=
  nextIs (exec i openedPending) (fun t => t.mres == .code c && !(t.slave 0).pending &&
    (t.slave 0).pke == 0x243A#16)

/-- Q1, Q2, Q3, Q4, Q8, Q9, and the thirteen other ack nibbles. -/
theorem test_resolve_named :
    resolved (.resolveNoResp 0#4 0x2BC#12 0#16 0#16) 0xFFFFFFFF#32 = true ∧
    resolved (.resolveNoRights 0#4 0x2BC#12 0#16 0#16) 0xFFFFFFFE#32 = true ∧
    resolved (.resolveCantExecute 0#4 0x2BC#12 0#16 0#16) 0xFFFFFFFD#32 = true ∧
    resolved (.resolveCantExecute 0#4 0x2BC#12 0#16 0x002A#16) 42#32 = true ∧
    resolved (.resolveCantExecute 0#4 0#12 0#16 0xFFFF#16) 65535#32 = true ∧
    resolved (.resolveCantExecute 0#4 0xABC#12 1#16 0#16) 0xFFFFFFFD#32 = true := by decide
theorem test_resolve_others :
    ([Instr.resolveOther1, .resolveOther2, .resolveOther3, .resolveOther4, .resolveOther5, .resolveOther6,
      .resolveOther9, .resolveOtherA, .resolveOtherB, .resolveOtherC, .resolveOtherD, .resolveOtherE,
      .resolveOtherF].all fun row => resolved (row 0#4 0#12 0xFFFF#16 0xFFFF#16) 0#32) = true := by decide

/-- Z2, Z15; Z4; Z7, Z8; Z10; Z13, Z12. -/
theorem test_setSetpoint :
    nextIs (exec (.setSetpoint 0#4 0xFFFF#16) ready) (fun t => (t.slave 0).setpoint == 0xFFFF#16 &&
      t.responses == [⟨0#32, 0#16⟩]) = true ∧
    nextIs (exec (.setSetpoint 2#4 0x2000#16) ready) (fun t => t.slaves == ready.slaves &&
      t.responses == [⟨0#32, 0#16⟩]) = true := by decide
theorem test_setCtl : nextIs (exec (.setCtl 0#4 0x8001#16) ready)
    (fun t => (t.slave 0).ctl == 0x847F#16) = true := by decide
theorem test_clrCtl :
    nextIs (exec (.clrCtl 0#4 0x0002#16) ready) (fun t => (t.slave 0).ctl == 0x047C#16) = true ∧
    nextIs (exec (.clrCtl 0#4 0xFFFF#16) ready) (fun t => (t.slave 0).ctl == 0#16) = true := by decide

/-- `ready` with the start state of section 4. -/
def answered : State := { ready with slaves := [⟨false, 0, 0, 0, 0, 0x047E#16, 0, 0xFA31#16, 0x0123#16⟩, Slave.reset] }

theorem test_getActual : nextIs (exec (.getActual 0#4) answered)
    (fun t => t.responses == [⟨0#32, 0x0123#16⟩]) = true := by decide
theorem test_chkStatus :
    nextIs (exec (.chkStatus 0#4 0x0003#16) answered) (fun t => t.responses == [⟨0#32, 1#16⟩]) = true ∧
    nextIs (exec (.chkStatus 0#4 0x0002#16) answered) (fun t => t.responses == [⟨0#32, 0#16⟩]) = true := by
  decide

/-- G1, the arithmetic of G2, and G3. -/
theorem test_configure :
    nextIs (exec (.configure 2#4 0#16 38400#32) { blank with cfgListPresent := true, cfgAddr := [1#5, 2#5] })
      (fun t => t.configured && t.count == 2 && t.addr == [1#5, 2#5] && t.tChar == 287 &&
        t.period == 49758 && t.de && t.trace == [.pinMode, .de true] &&
        t.responses == [⟨0#32, 0#16⟩]) = true := by decide
theorem test_configure_errors :
    nextIs (exec (.configure 1#4 100#16 9600#32) { blank with cfgListPresent := true, cfgAddr := [5#5] })
      (fun t => t.tChar == 1146 && t.period == 78964 && t.deMargin == 100) = true ∧
    nextIs (exec (.configure 3#4 0#16 9600#32) { blank with cfgListPresent := true })
      (fun t => t.responses == [⟨101#32, 0#16⟩] && !t.configured && t.trace.isEmpty) = true := by decide

/-- H1; H10 and H11 for the gate. -/
theorem test_send : nextIs (exec .send ready) (fun t =>
    t.trace.drop 2 == [.now 1000, .txWrite [0x02#8, 0x0E#8, 0x01#8, 0#8, 0#8, 0#8, 0#8, 0#8, 0#8, 0#8, 0#8,
      0x04#8, 0x7E#8, 0x20#8, 0#8, 0x57#8], .de true, .delay 574, .de false, .now 6000] &&
    t.nextSend == 55758 && t.windowOpen && t.cursor == 0 && !t.de) = true := by decide
theorem test_send_gate :
    nextIs (exec .send { ready with nextSend := 20195928, nowIn := [10195929] })
      (fun t => t.seq == .sendGate && !t.windowOpen && !t.gateAbandoned) = true ∧
    nextIs (exec .send { ready with nextSend := 20195928, nowIn := [10195928, 10200000] })
      (fun t => t.seq == .idle && t.windowOpen && t.gateAbandoned) = true := by decide

/-- H2, H3. -/
theorem test_receive_accepts : nextIs (exec .receive opened) (fun t =>
    (t.slave 0).status == 0xFA31#16 && (t.slave 0).actual == 0#16 && t.responses == [⟨0#32, 0#16⟩] &&
    t.cursor == 1 && !t.windowOpen && t.de) = true := by decide
theorem test_receive_rejects : nextIs (exec .receive { opened with rxIn := [[0x02#8, 0x0E#8, 0x02#8, 0#8, 0#8,
    0#8, 0#8, 0#8, 0#8, 0#8, 0#8, 0xFA#8, 0x31#8, 0#8, 0#8, 0xC5#8]] }) (fun t =>
    t.slaves == opened.slaves && t.responses == [⟨100#32, 0#16⟩] && t.cursor == 1 && t.de) = true := by decide

/-- Step 2 of P1 (with the process data of `ready`, so telegram E6), and step 3's refusal by the slave. -/
theorem test_setparamW : nextIs (exec (.setparamW 0#4 0x043A#16 16#16) { ready with rxIn := [frameK1] })
    (fun t => t.seq == .idle && t.cursor == 1 && t.responses == [⟨0#32, 0#16⟩] &&
      Memory.bytes t.txbuf 16 == [0x02#8, 0x0E#8, 0x01#8, 0x24#8, 0x3A#8, 0#8, 0#8, 0#8, 0#8, 0#8, 0x10#8,
        0x04#8, 0x7E#8, 0x20#8, 0#8, 0x59#8]) = true := by decide
theorem test_setparamW_refused : nextIs (exec (.setparamW 1#4 700#16 5#16) { ready with
    cursor := 1, nextSend := 55758, nowIn := [60000, 65000], rxIn := [[0x02#8, 0x0E#8, 0x02#8, 0x72#8, 0xBC#8,
      0#8, 0#8, 0#8, 0#8, 0#8, 0#8, 0xFA#8, 0x31#8, 0x01#8, 0x23#8, 0x29#8]] }) (fun t =>
    t.responses == [⟨0xFFFFFFFD#32, 0#16⟩] && (t.slave 1).actual == 0x0123#16 && t.nextSend == 114758)
    = true := by decide

/-- A request of R201 and of R202 for a slave whose frame is rejected stays (scan B of P3). -/
theorem test_setparamD : nextIs (exec (.setparamD 0#4 5#16 0x12345678#32) { ready with rxIn := [[]] })
    (fun t => t.seq == .paramGate 0#4 && (t.slave 0).pending && (t.slave 0).pke == 0x3005#16 &&
      (t.slave 0).vhi == 0x1234#16 && t.responses.isEmpty) = true := by decide
theorem test_setparamF : nextIs (exec (.setparamF 0#4 0x043A#16 0xBFC00000#32) { ready with rxIn := [[]] })
    (fun t => (t.slave 0).pke == 0x343A#16 && (t.slave 0).vhi == 0xBFC0#16 && t.cursor == 1) = true := by
  decide

/-- H5, H6, G7, G8, and the illegal opcodes. -/
theorem test_refusals :
    refusal (exec .send opened) = some .phase ∧ refusal (exec .receive ready) = some .phase ∧
    refusal (exec (.configure 1#4 0#16 9600#32) ready) = some .reconfigure ∧
    refusal (exec (.configure 1#4 0#16 0#32) blank) = some .baudZero ∧
    refusal (exec (.setparamW 0#4 0#16 0#16) opened) = some .phase ∧
    refusal (exec (.illegalOp0 0#60) ready) = some .illegalOp ∧
    refusal (step (ready.withFetchWord 64 0xC000000000000000)) = some .illegalOp ∧
    refusal (step (ready.withFetchWord 64 0x2001000000000000)) = some .reservedBits := by decide

/-! ## Witnesses: for each obligation with hypotheses, states and operands that meet them -/

/-- O1, at the largest address and the largest parameter number. -/
theorem witness_DecodeOfEncodeIsIdentity :
    (Instr.encode 31#8 ⟨0, 0, 0, 0⟩ ⟨0, 0⟩).wellFormed = true ∧ (Instr.decode frameK1).wellFormed = true ∧
    (Instr.bcc frameK1 15).wellFormed = true ∧ (Instr.reqF 0#4 0x07FF#16 0#32).wellFormed = true ∧
    Instr.send.wellFormed = true := by decide

/-- O2. -/
theorem witness_DecodedInstructionsAreWellFormed :
    decode (.pkw ⟨0x27FF#16, 0, 0, 0⟩ 15#16 0#16) = .ok (.reqW 15#4 0x07FF#16 0#16) := by decide

/-- An entry of the port. -/
def entry (w : PortWord) : PortEntry := ⟨w, false, []⟩

/-- O4, its four clauses. -/
theorem witness_StepRunsTheDecodedInstruction :
    ready.resetLine = false ∧ ready.seq = .idle ∧ ready.port = [] ∧
    (∃ (s : State) (i : Instr), s.resetLine = false ∧ s.seq = .idle ∧
      s.port = [entry (.cmd 0x2000000000000000#64)] ∧
      decode (entry (.cmd 0x2000000000000000#64)).word = .ok i ∧ i.wellFormed = true) ∧
    decode (entry (.cmd 0x2001000000000000#64)).word = .error .reservedBits ∧
    decode (entry (.frame [] 0#2)).word = .error .noMicroOp :=
  ⟨rfl, rfl, rfl, ⟨{ ready with port := [entry (.cmd 0x2000000000000000#64)] }, .send, by decide⟩,
    by decide, by decide⟩

/-- `ready` inside a `SEND`. -/
def sending : State := { ready with seq := .sendGate, nextSend := 55758 }

theorem inv_sending : sending.Inv := inv_of _ (by decide) (by decide) (by decide) (by decide) (by decide)
  (by decide)

/-- O5. -/
theorem witness_StepContinuesAWaitingSend :
    sending.Inv ∧ sending.resetLine = false ∧ sending.seq = .sendGate := ⟨inv_sending, rfl, rfl⟩

/-- O6, its two clauses. -/
theorem witness_StepContinuesAWaitingSetparam :
    scanning.Inv ∧ scanning.resetLine = false ∧ scanning.seq = .paramGate 0#4 ∧
    (∃ t, exec .send scanning = .next t ∧ t.windowOpen = true) ∧
    ∃ s : State, s.Inv ∧ s.resetLine = false ∧ s.seq = .paramGate 0#4 ∧
      ∃ t, exec .send s = .next t ∧ t.windowOpen = false :=
  ⟨inv_scanning, rfl, rfl, next_of (by decide), { scanning with nextSend := 55758 },
    inv_of _ (by decide) (by decide) (by decide) (by decide) (by decide) (by decide), rfl, rfl,
    next_of (by decide)⟩

/-- O7. -/
theorem witness_ResetInputRestoresResetState : { scanning with resetLine := true }.resetLine = true := rfl

/-- O9. -/
theorem witness_ResetMeetsTheInvariants : valuation.Valid := by decide

/-- O10 to O15: an index in range at its bound and one just out of range. -/
theorem witness_process_data : ready.Inv ∧ (1#4).toNat < ready.count ∧ ready.count ≤ (2#4).toNat :=
  ⟨inv_ready, by decide, by decide⟩

/-- O14: both answers. -/
theorem witness_ChkStatusTestsTheMask : (0#4).toNat < answered.count ∧
    (0xFA31#16).getLsbD 0 = true ∧ (0x0003#16).getLsbD 0 = true := by decide

/-- O16 to O19. -/
theorem witness_requests : ready.Inv ∧ (1#4).toNat < ready.count ∧ ready.count ≤ (2#4).toNat :=
  ⟨inv_ready, by decide, by decide⟩

/-- O20: each row is in the list, and each clause has a row. -/
theorem witness_ResolveMapsTheAckAndClearsTheRequest : openedPending.Inv ∧
    (∀ ack : BitVec 4, ∃ row, (ack, row) ∈ resolveRows) ∧
    openedPending.cfg.akNoResp = 0x0#4 ∧ openedPending.cfg.akNoRights = 0x8#4 ∧
    openedPending.cfg.akCantExecute = 0x7#4 ∧ openedPending.cfg.errcode 0#16 0#16 = 0#16 ∧
    openedPending.cfg.errcode 0#16 42#16 ≠ 0#16 := by
  refine ⟨inv_openedPending, fun ack => ?_, by decide⟩
  have h : ack ∈ resolveRows.map Prod.fst := by revert ack; decide
  obtain ⟨⟨a, row⟩, hm, rfl⟩ := List.mem_map.mp h
  exact ⟨row, hm⟩

theorem frameFrom_K1 : FrameFrom valuation 1#5 frameK1 := by unfold FrameFrom FrameOk; decide

/-- O22: a `RECEIVE` that resolves, and a `SETPARAM_*` of slave 1 that resolves slave 0. -/
theorem witness_ParameterChannelTransitions :
    (openedPending.Inv ∧ (Instr.receive).requests 0 = false ∧ (openedPending.slave 0).pending = true ∧
      ∃ t, exec .receive openedPending = .next t ∧ (t.slave 0).pending = false) ∧
    ∃ s : State, s.Inv ∧ (Instr.setparamW 1#4 0#16 0#16).requests 0 = false ∧
      (s.slave 0).pending = true ∧
      ∃ t, exec (.setparamW 1#4 0#16 0#16) s = .next t ∧ (t.slave 0).pending = false :=
  ⟨⟨inv_openedPending, rfl, rfl, next_of (by decide)⟩, { scanning with seq := .idle },
    inv_of _ (by decide) (by decide) (by decide) (by decide) (by decide) (by decide), rfl, rfl,
    next_of (by decide)⟩

/-- `ready` with W1 pending in `S[0]`. -/
def pendingReady : State := { ready with slaves := [requested, Slave.reset] }

theorem inv_pendingReady : pendingReady.Inv := inv_of _ (by decide) (by decide) (by decide) (by decide)
  (by decide) (by decide)

/-- `pendingReady` with the clock answers of three scans and slaves that send nothing. -/
def resent : State :=
  { pendingReady with nowIn := [0, 0, 49758, 50000, 100000, 100100], rxIn := [[], [], []] }

theorem inv_resent : resent.Inv := inv_of _ (by decide) (by decide) (by decide) (by decide) (by decide)
  (by decide)

/-- O23: a `SETPARAM_*` of slave 1 in between, whose scans are of slave 0, of slave 1, and of slave 0 again. -/
theorem witness_PendingRequestIsResentUnchanged : resent.Inv ∧ (resent.slave 0).pending = true ∧
    (∃ v, SendsOnce 0 resent v) ∧ resent.wrapped = 0 ∧ resent.gateEnds ∧
    ∃ u v, Unresolved 0 resent u ∧ SendsOnce 0 u v ∧ u.wrapped = 0 ∧ u.gateEnds := by
  obtain ⟨a, ha, ⟨haq, haw, hal⟩, h⟩ := next_of (o := exec (.setparamW 1#4 0#16 0#16) resent)
    (p := fun a => (a.seq = .paramGate 1#4 ∧ a.wrapped = 1 ∧ a.resetLine = false) ∧
      nextIs (step a) (fun b => decide ((b.seq = .paramGate 1#4 ∧ b.wrapped = 0 ∧ b.resetLine = false ∧
        b.nextSend ≤ b.nowValue) ∧ nextIs (step b) (fun c => decide (c.cursor = 1)) = true)) = true)
    (by decide)
  obtain ⟨b, hb, ⟨hbq, hbw, hbl, hbg⟩, h⟩ := next_of h
  obtain ⟨c, hc, _⟩ := next_of h
  have no : ¬ resent.scanAccepts 0 := by
    unfold State.scanAccepts State.gateEnds FrameFrom FrameOk; decide
  have hs : IsSetparam resent.cfg (.setparamW 1#4 0#16 0#16) 1#4 0x2000#16 0#16 0#16 := .word 1#4 0#16 0#16
  refine ⟨inv_resent, rfl, ⟨a, .setparam hs (by decide) (by decide) ha⟩, rfl, .inl (by decide), b, c,
    .op (i := .setparamW 1#4 0#16 0#16) rfl rfl (fun h => nomatch h) (fun _ _ _ _ _ _ => no) ha
      (.goesOn (by rw [haq]; decide) hal ?_ hb (.nil b)), .goesOn (by rw [hbq]; decide) hbl hc, hbw, .inl hbg⟩
  intro _ _ hacc
  exact absurd (haw.symm.trans hacc.2.1) (by decide)

/-- O23: a `SEND` to the pending slave that waits, and one that is sent. -/
theorem witness_PendingRequest_send : (∃ v, SendsOnce 0 pendingReady v) ∧ pendingReady.wrapped = 0 ∧
    ∃ s : State, (∃ v, SendsOnce 0 s v) ∧ s.wrapped = 0 ∧ ¬ s.gateEnds := by
  obtain ⟨t, ht, _⟩ := next_of (o := exec .send pendingReady) (p := fun t => t.windowOpen = true) (by decide)
  obtain ⟨w, hw, _⟩ := next_of (o := exec .send { pendingReady with nextSend := 55758 })
    (p := fun t => t.windowOpen = false) (by decide)
  exact ⟨⟨t, .send ht⟩, rfl, _, ⟨w, .send hw⟩, rfl, by unfold State.gateEnds; decide⟩

/-- O24: a range, its reverse, and a frame that ends in its BCC. -/
theorem witness_BccIsTheXorOfTheRange :
    (15 ≤ frameK1.length ∧ ((frameK1.take 15).reverse).length = 15) ∧
    ((frameK1.take 15).reverse).Perm (frameK1.take 15) ∧
    frameK1.length = 16 ∧ frameK1.getD 15 0#8 = xorOf (frameK1.take 15) :=
  ⟨by decide, List.reverse_perm _, by decide, by decide⟩

/-- O25 and O28. -/
theorem witness_EncodeAndDecodeAgree : blank.Inv ∧
    (∃ t, exec (.encode 0xE3#8 ⟨0, 0, 0, 0⟩ ⟨0, 0⟩) blank = .next t ∧ t.windowOpen = false) ∧
    ∃ t, exec (.decode frameK1) blank = .next t ∧
      t.mres = .decoded (.ok ⟨1#8, ⟨0x243A#16, 0#16, 0#16, 0x0010#16⟩, ⟨0xFA31#16, 0#16⟩⟩) :=
  ⟨inv_blank, next_of (by decide), next_of (by decide)⟩

/-- O26: one frame for each cause. -/
theorem witness_DecodeFailsExactlyForTheListedCauses :
    ([] : List Byte).length ≠ 16 ∧ (0x03#8 :: frameK1.drop 1).getD 0 0#8 ≠ 0x02#8 ∧
    { valuation with checkLge := true }.checkLge = true ∧
    (0x02#8 :: 0#8 :: frameK1.drop 2).getD 1 0#8 ≠ valuation.lge ∧
    (frameK1.take 15 ++ [0xC9#8]).getD 15 0#8 ≠ xorOf ((frameK1.take 15 ++ [0xC9#8]).take 15) := by decide

/-- O27. -/
theorem witness_DecodeExtractsTheFields : FrameOk blank.cfg frameK1 := frameFrom_K1.1

/-- O29: K1's operands with the BCC byte changed (one byte), and with offsets 3 and 5 changed alike (K10). -/
theorem witness_OneChangedByteIsDetected :
    let f := telegram blank.cfg.lge 1#8 ⟨0x243A#16, 0#16, 0#16, 0x0010#16⟩ ⟨0xFA31#16, 0#16⟩
    ∃ g h : List Byte, (g.length = 16 ∧ (∀ o, o ≠ 15 → g.getD o 0#8 = f.getD o 0#8) ∧
        g.getD 15 0#8 ≠ f.getD 15 0#8) ∧
      h.length = 16 ∧ (∀ o, o ≠ 3 → o ≠ 5 → h.getD o 0#8 = f.getD o 0#8) ∧
        h.getD 3 0#8 ^^^ f.getD 3 0#8 = h.getD 5 0#8 ^^^ f.getD 5 0#8 ∧ h.getD 0 0#8 = 0x02#8 ∧
        h.getD 3 0#8 ≠ f.getD 3 0#8 := by
  have small : ∀ (a b : List Byte), a.length = 16 → b.length = 16 → ∀ P : Nat → Prop,
      (∀ o, o < 16 → P o → a.getD o 0#8 = b.getD o 0#8) → ∀ o, P o → a.getD o 0#8 = b.getD o 0#8 := by
    intro a b ha hb P h o ho
    by_cases hlt : o < 16
    · exact h o hlt ho
    · simp [List.getD_eq_getElem?_getD, List.getElem?_eq_none (show a.length ≤ o by omega),
        List.getElem?_eq_none (show b.length ≤ o by omega)]
  refine ⟨frameK1.take 15 ++ [0xC9#8], [0x02#8, 0x0E#8, 0x01#8, 0x20#8, 0x3A#8, 0x04#8, 0#8, 0#8, 0#8, 0#8,
    0x10#8, 0xFA#8, 0x31#8, 0#8, 0#8, 0xC8#8], ⟨by decide, ?_, by decide⟩, by decide, ?_, by decide⟩
  · exact small _ _ (by decide) (by decide) (fun o => o ≠ 15) (by decide)
  · intro o h3 h5
    exact small _ _ (by decide) (by decide) (fun o => o ≠ 3 ∧ o ≠ 5) (by decide) o ⟨h3, h5⟩

/-- O30, at `n = MAX_SLAVES`, with a rate the valuation leaves at the default. -/
theorem witness_ConfigureSetsUpTheBlock : ∃ s : State, s.configured = false ∧ (38400#32 : DWord) ≠ 0#32 ∧
    s.cfgListPresent = true ∧ (2#4 : BitVec 4) ≠ 0#4 ∧ (2#4).toNat ≤ s.cfg.maxSlaves ∧
    s.cfg.charTimes.lookup 38400#32 = none ∧ s.cfgAddr[1]? = some 2#5 :=
  ⟨{ blank with cfgListPresent := true, cfgAddr := [1#5, 2#5] }, by decide⟩

/-- O31, its three clauses. -/
theorem witness_ConfigureErrorsHaveNoEffect : blank.Inv ∧ blank.configured = false ∧
    blank.cfgListPresent = false ∧ ∃ s : State, s.Inv ∧ s.configured = false ∧ s.cfgListPresent = true ∧
      s.cfg.maxSlaves < (3#4).toNat :=
  ⟨inv_blank, rfl, rfl, { blank with cfgListPresent := true }, inv_of _ (by decide) (by decide) (by decide)
    (by decide) (by decide) (by decide), by decide⟩

/-- O32. -/
theorem witness_ConfigureRefusals : ready.configured = true ∧ blank.configured = false := ⟨rfl, rfl⟩

/-- O33: cases (a) and (b) of R175, (b) at its bound. -/
theorem witness_SendTransmitsTheTelegram :
    (ready.Inv ∧ ready.configured = true ∧ ready.windowOpen = false ∧ ready.gateEnds) ∧
    ∃ s : State, s.Inv ∧ s.configured = true ∧ s.windowOpen = false ∧ s.gateEnds ∧
      s.nowValue < s.nextSend :=
  ⟨⟨inv_ready, rfl, rfl, .inl (by decide)⟩, { ready with nextSend := 20195928, nowIn := [10195928] },
    inv_of _ (by decide) (by decide) (by decide) (by decide) (by decide) (by decide), rfl, rfl,
    .inr (by decide), by decide⟩

/-- O34, one tick inside the bound. -/
theorem witness_SendWaitsInItsGate : ∃ s : State, s.configured = true ∧ s.windowOpen = false ∧
    ¬ s.gateEnds :=
  ⟨{ ready with nextSend := 20195928, nowIn := [10195929] }, rfl, rfl, by unfold State.gateEnds; decide⟩

/-- O35: waiting, a wrap, a pending slave, an idle slave. -/
theorem witness_SendSelectsAndComposes :
    (sending.Inv ∧ ∃ t, exec .send sending = .next t ∧ t.windowOpen = false) ∧
    (pendingReady.Inv ∧ ∃ t, exec .send pendingReady = .next t ∧ t.windowOpen = true ∧
      (pendingReady.slave t.cursor).pending = true) ∧
    ∃ s : State, s.Inv ∧ s.cursor = s.count ∧ ∃ t, exec .send s = .next t ∧ t.windowOpen = true ∧
      (s.slave t.cursor).pending = false :=
  ⟨⟨inv_sending, next_of (by decide)⟩, ⟨inv_pendingReady, next_of (by decide)⟩, { ready with cursor := 2 },
    inv_of _ (by decide) (by decide) (by decide) (by decide) (by decide) (by decide), rfl,
    next_of (by decide)⟩

/-- O36, O39 and O42: the window open, the frame of H2 and one that is too short. -/
theorem witness_receive :
    (opened.Inv ∧ opened.windowOpen = true ∧ FrameFrom opened.cfg (opened.addrAt opened.cursor) opened.rxBytes) ∧
    ∃ s : State, s.Inv ∧ s.windowOpen = true ∧ ¬ FrameFrom s.cfg (s.addrAt s.cursor) s.rxBytes :=
  ⟨⟨inv_opened, rfl, by unfold FrameFrom FrameOk; decide⟩, { opened with rxIn := [[]] },
    inv_of _ (by decide) (by decide) (by decide) (by decide) (by decide) (by decide), rfl,
    by unfold FrameFrom FrameOk; decide⟩

/-- `openedPending` with a response whose PKE has the high byte `hi` and whose value-low is `lo`. -/
def acknowledged (hi lo : Byte) : State := { openedPending with rxIn := [answerFrame hi lo] }

theorem inv_acknowledged (hi lo : Byte) : (acknowledged hi lo).Inv :=
  let h := inv_openedPending
  ⟨h.1, h.2, h.3, h.4, h.5, h.6, h.7, h.8, h.9, h.10, h.11, h.12, h.13, h.14⟩

/-- An accepted frame with ack code `ack` and value words 0 and `lo` for the pending slave 0. -/
def Acknowledges (s : State) (ack : BitVec 4) (lo : Word) : Prop :=
  s.windowOpen = true ∧ FrameFrom s.cfg (s.addrAt s.cursor) s.rxBytes ∧ (s.slave s.cursor).pending = true ∧
    (frameWordAt s.rxBytes 3).extractLsb' 12 4 = ack ∧ frameWordAt s.rxBytes 7 = 0#16 ∧
    frameWordAt s.rxBytes 9 = lo

/-- O37, each ack code, and both error numbers of `CANT_EXECUTE`. -/
theorem witness_AcknowledgmentOutcomesOfReceive : (∀ hi lo, (acknowledged hi lo).Inv) ∧
    Acknowledges (acknowledged 0x02#8 0#8) 0#4 0#16 ∧ Acknowledges (acknowledged 0x82#8 0#8) 8#4 0#16 ∧
    Acknowledges (acknowledged 0x72#8 0#8) 7#4 0#16 ∧
    Acknowledges (acknowledged 0x72#8 0x2A#8) 7#4 0x002A#16 := by
  refine ⟨inv_acknowledged, ?_, ?_, ?_, ?_⟩ <;> unfold Acknowledges FrameFrom FrameOk <;> decide

/-- O38: an `Idle` slave, and a pending one with another ack code. -/
theorem witness_AcceptedFrameIsOtherwiseSuccess :
    (opened.Inv ∧ FrameFrom opened.cfg (opened.addrAt opened.cursor) opened.rxBytes ∧
      (opened.slave opened.cursor).pending = false ∧ ∃ t, exec .receive opened = .next t ∧ t.cursor = 1) ∧
    (openedPending.Inv ∧ FrameFrom openedPending.cfg (openedPending.addrAt 0) openedPending.rxBytes ∧
      (frameWordAt openedPending.rxBytes 3).extractLsb' 12 4 = 2#4 ∧
      ∃ t, exec .receive openedPending = .next t ∧ t.cursor = 1) :=
  ⟨⟨inv_opened, by unfold FrameFrom FrameOk; decide, rfl, next_of (by decide)⟩,
    inv_openedPending, by unfold FrameFrom FrameOk; decide, by decide, next_of (by decide)⟩

/-- The request of `SETPARAM_W(0, 0x043A, 16)` (W1). -/
theorem isSetparam_W1 : IsSetparam valuation (.setparamW 0#4 0x043A#16 16#16) 0#4 0x243A#16 0#16 16#16 :=
  .word 0#4 0x043A#16 16#16

/-- O40: both sides of each clause. -/
theorem witness_BusCommandsAreRefusedOutOfPhase :
    (blank.configured = false ∧ opened.windowOpen = true ∧ ready.windowOpen = false) ∧
    opened.Inv ∧ IsSetparam opened.cfg (.setparamW 0#4 0x043A#16 16#16) 0#4 0x243A#16 0#16 16#16 ∧
    (0#4).toNat < opened.count := ⟨⟨rfl, rfl, rfl⟩, inv_opened, isSetparam_W1, by decide⟩

/-- O41: a `RECEIVE` that accepts and a `SEND`. -/
theorem witness_RecordsPersist :
    (opened.Inv ∧ ∃ t, exec .receive opened = .next t ∧ (t.slave 0).status = 0xFA31#16) ∧
    (ready.Inv ∧ ∃ t, exec .send ready = .next t ∧ t.windowOpen = true) :=
  ⟨⟨inv_opened, next_of (by decide)⟩, inv_ready, next_of (by decide)⟩

/-- O43. -/
theorem witness_SetparamRecordsThenScans : ∃ r : State, ready.Inv ∧
    IsSetparam ready.cfg (.setparamW 0#4 0x043A#16 16#16) 0#4 0x243A#16 0#16 16#16 ∧
    (0#4).toNat < ready.count ∧ ready.windowOpen = false ∧ ready.resetLine = false ∧
    OnlyRecord ready r 0#4
      (fun q => { q with pke := 0x243A#16, ind := 0#16, vhi := 0#16, vlo := 16#16, pending := true }) [] := by
  refine ⟨pendingReady, inv_ready, isSetparam_W1, by decide, rfl, rfl, ⟨fun i => ?_, rfl, rfl⟩⟩
  match i with
  | 0 => rfl
  | 1 => rfl
  | n + 2 => rfl

/-- O44. -/
theorem witness_SetparamCompletesInOneScan : ∃ s : State, s.Inv ∧
    IsSetparam s.cfg (.setparamW 0#4 0x043A#16 16#16) 0#4 0x243A#16 0#16 16#16 ∧
    (0#4).toNat < s.count ∧ s.windowOpen = false ∧ s.wrapped = (0#4).toNat ∧ s.gateEnds ∧
    FrameFrom s.cfg (s.addrAt 0) s.afterNow.afterNow.rxBytes :=
  ⟨{ ready with cursor := 2, rxIn := [frameK1] }, inv_of _ (by decide) (by decide) (by decide) (by decide)
    (by decide) (by decide), isSetparam_W1, by decide, rfl, rfl, .inl (by decide),
    by unfold FrameFrom FrameOk; decide⟩

/-- O45, before `CONFIGURE` and just out of range. -/
theorem witness_SetparamOutOfRangeIsANoOp :
    IsSetparam blank.cfg (.setparamW 0#4 0x043A#16 16#16) 0#4 0x243A#16 0#16 16#16 ∧
    blank.count ≤ (0#4).toNat ∧ ready.count ≤ (2#4).toNat := ⟨isSetparam_W1, by decide, by decide⟩

/-- O48, its three clauses at the bounds of the opcode. -/
theorem witness_IllegalCommandWordsAreRefused :
    (∃ s : State, s.resetLine = false ∧ s.seq = .idle ∧ s.port = [entry (.cmd 0#64)]) ∧
    (0x0FFFFFFFFFFFFFFF#64).toNat / 2 ^ 60 = 0 ∧ (0xC000000000000000#64).toNat / 2 ^ 60 = 12 ∧
    (0x1001000000000000#64).toNat / 2 ^ 60 = 1 ∧ (0x1001000000000000#64).toNat / 2 ^ 48 % 2 ^ 8 ≠ 0 ∧
    (0xB000000000000000#64).toNat / 2 ^ 60 = 11 ∧ (0xB000000000000000#64).toNat / 2 ^ 48 % 2 ^ 8 = 0 :=
  ⟨⟨{ ready with port := [entry (.cmd 0#64)] }, rfl, rfl, rfl⟩, by decide⟩

/-- `ready` with the `SETPARAM_W` of W1 issued, and a slave that sends nothing. -/
def issued : State := { ready with port := [entry (.cmd 0x4000043A00000010#64)], rxIn := [[]] }

theorem inv_issued : issued.Inv := inv_of _ (by decide) (by decide) (by decide) (by decide) (by decide)
  (by decide)

theorem hostOnly_issued : issued.HostOnly := by
  refine ⟨by decide, fun i hp => ?_⟩
  match i, hp with
  | 0, hp => cases hp
  | 1, hp => cases hp
  | n + 2, hp => cases hp

theorem busOrder_sending : sending.BusOrder :=
  ⟨fun h => (nomatch h), fun h => (nomatch h), fun _ _ => .inl (by decide)⟩

/-- One scan done and the next `SEND` issued, in time. -/
def resending : State :=
  { opened with
    windowOpen := false, de := true, cursor := 1, trace := opened.trace ++ [.rxRead [], .de true]
    nowIn := [55758, 60800], port := [entry (.cmd 0x2000000000000000#64)] }

/-- O49 to O52: a state with each invariant and a step from it, the last inside a `SETPARAM_*`. -/
theorem witness_step_invariants :
    (scanning.Inv ∧ ∃ t, step scanning = .next t ∧ t.seq = .idle) ∧
    (issued.HostOnly ∧ issued.Inv ∧ ∃ t, step issued = .next t ∧ t.seq = .paramGate 0#4) ∧
    (sending.BusOrder ∧ sending.Inv ∧ ∃ t, step sending = .next t ∧ t.seq = .sendGate) ∧
    resending.PeriodOk ∧ resending.Inv ∧ ∃ t, step resending = .next t ∧ t.windowOpen = true :=
  ⟨⟨inv_scanning, next_of (by decide)⟩, ⟨hostOnly_issued, inv_issued, next_of (by decide)⟩,
    ⟨busOrder_sending, inv_sending, next_of (by decide)⟩,
    ⟨fun h => (nomatch h), by decide, by decide, by decide⟩, inv_of _ (by decide) (by decide) (by decide) (by decide)
      (by decide) (by decide), next_of (by decide)⟩

/-- O52: a state whose second telegram had its gate abandoned. -/
def abandonedOnce : State :=
  { opened with
    gateAbandoned := true
    trace := opened.trace ++ [.rxRead [], .de true, .now 0, .txWrite (ready.telegramTo 0), .de true,
      .delay 574, .de false, .now 10]
    nextSend := 49768, period := 49758
    cfg := { valuation with ticksPerSecond := 5000 } }

theorem witness_StepKeepsTheMinimumPeriod : abandonedOnce.PeriodOk ∧ abandonedOnce.Inv ∧
    ∃ t, step (abandonedOnce.withFetchWord 64 0x3000000000000000) = .next t ∧ t.gateAbandoned = true :=
  ⟨⟨fun h => (nomatch h), by decide, by decide, by decide⟩, inv_of _ (by decide) (by decide) (by decide)
    (by decide) (by decide) (by decide), next_of (by decide)⟩

/-- O53: a state with a next state and one that is refused. -/
theorem witness_StepNeverFaults : ready.Inv ∧ ∃ s : State, s.Inv ∧ s.resetLine = false ∧ s.seq = .idle ∧
    s.port ≠ [] ∧ step s = .refused .phase :=
  ⟨inv_ready, ready.withFetchWord 64 0x3000000000000000, inv_of _ (by decide) (by decide) (by decide)
    (by decide) (by decide) (by decide), rfl, rfl, by decide, refused_of (by decide)⟩

/-- O54. -/
theorem witness_ConfigurationIsImmutable : ∃ s t : State, step s = .next t ∧ s.resetLine = false ∧
    s.configured = true ∧ s.gateAbandoned = true := by
  obtain ⟨t, ht, _⟩ := next_of (o := step { sending with gateAbandoned := true })
    (p := fun t => t.configured = true) (by decide)
  exact ⟨_, t, ht, rfl, rfl, rfl⟩

/-- O55: a command that completes, one that does not, and a micro-operation. -/
theorem witness_OneResponsePerCommand :
    (ready.seq = .idle ∧ decode (.cmd 0xA000000000000000#64) = .ok (.getActual 0#4) ∧
      ∃ t, exec (.getActual 0#4) ready = .next t ∧ t.seq = .idle) ∧
    (∃ s : State, s.seq = .idle ∧ decode (.cmd 0x2000000000000000#64) = .ok .send ∧
      ∃ t, exec .send s = .next t ∧ t.seq ≠ .idle) ∧
    ∃ t, exec .noTask ready = .next t ∧ t.seq = .idle :=
  ⟨⟨rfl, by decide, next_of (by decide)⟩, ⟨{ ready with nextSend := 55758 }, rfl, by decide,
    next_of (by decide)⟩, next_of (by decide)⟩

/-- At the last slave, with the clock answers of two scans and a slave that sends nothing. -/
def rounds : State := { ready with cursor := 1, nowIn := [0, 0, 49758, 50000], rxIn := [[]] }

/-- O56: two scans from the last slave, the first one rejected. -/
theorem witness_RoundRobinCoverage : ∃ u : State, rounds.Inv ∧ rounds.configured = true ∧
    rounds.windowOpen = false ∧ BusRun rounds [1, 0] u := by
  let sentTo (k : Nat) (c : State) : Bool := decide (c.windowOpen = true ∧ c.cursor = k)
  obtain ⟨a, ha, ⟨haw, hac⟩, h⟩ := next_of (o := exec .send rounds)
    (p := fun a => (a.windowOpen = true ∧ a.cursor = 1) ∧
      nextIs (exec .receive a) (fun b => decide (nextIs (exec .send b) (sentTo 0) = true)) = true) (by decide)
  obtain ⟨b, hb, h⟩ := next_of h
  obtain ⟨c, hc, hcw, hcc⟩ := next_of h
  refine ⟨c, inv_of _ (by decide) (by decide) (by decide) (by decide) (by decide) (by decide), rfl, rfl, ?_⟩
  have h1 := BusRun.sent ha haw (.received hb (BusRun.sent hc hcw (.nil c)))
  rwa [hac, hcc] at h1

/-- O57, for a slave whose turn it is. -/
theorem witness_SetparamEndsAtItsTurn : scanning.Inv ∧ scanning.resetLine = false ∧
    scanning.seq = .paramGate 0#4 ∧
    ∀ (m : Nat) (u : State), m ≤ ((0#4).toNat + scanning.count - scanning.cursor % scanning.count) % scanning.count →
      Host.Core.run Sys2Proof.core m scanning = .next u →
      u.gateEnds ∧ FrameFrom u.cfg (u.addrAt u.wrapped) u.afterNow.afterNow.rxBytes := by
  refine ⟨inv_scanning, rfl, rfl, fun m u hm h => ?_⟩
  obtain rfl : m = 0 := Nat.le_zero.mp hm
  cases h
  exact ⟨.inl (by decide), by unfold FrameFrom FrameOk; decide⟩

/-- O58, at the last offset. -/
theorem witness_FrameBuffersReadWhatWasWritten : Memory.wf [(0, 1#8), (15, 2#8)] = true ∧ 15 < 16 := by decide

end Sys2Proof.Tests
end

section
/-! PROOFS. The family 00_scope.md: what a step of an idle sequencer runs (O4), and that the configuration,
the sticky flag `gate_abandoned` and the valuation of the parameters stay as they are (O54). -/

namespace Sys2Proof.Machine

/-! ## What the port offers -/

theorem fetch_nothing {s : State} (hp : s.port = []) : fetch s = .nothing := by
  simp [fetch, hp]

theorem fetch_run {s : State} {e : PortEntry} {rest : List PortEntry} {i : Instr}
    (hp : s.port = e :: rest) (hd : decode e.word = .ok i) : fetch s = .run i (s.accept e rest) := by
  simp [fetch, hp, hd]

theorem fetch_bad {s : State} {e : PortEntry} {rest : List PortEntry} {r : DecodeError}
    (hp : s.port = e :: rest) (hd : decode e.word = .error r) : fetch s = .bad (refusalOf r) := by
  simp [fetch, hp, hd]

/-! ## A step under the reset input, and of an idle sequencer by what the port offers -/

theorem step_of_resetLine {s : State} (hl : s.resetLine = true) : step s = .next s.hardwareReset := by
  simp [step, hl]

section Idle

variable {s : State} (hl : s.resetLine = false) (hq : s.seq = .idle)
include hl hq

theorem step_of_fetch_nothing (hf : fetch s = .nothing) : step s = .next s := by
  simp [step, hl, hq, hf]

theorem step_of_fetch_run {i : Instr} {t : State} (hf : fetch s = .run i t) : step s = exec i t := by
  simp [step, hl, hq, hf]

theorem step_of_fetch_bad {r : Refusal} (hf : fetch s = .bad r) : step s = .refused r := by
  simp [step, hl, hq, hf]

end Idle

/-- Settles O4: the step is read off what the port offers. -/
theorem stepRunsTheDecodedInstruction : Obligations.StepRunsTheDecodedInstruction := by
  intro s hl hq
  refine ⟨fun hp => step_of_fetch_nothing hl hq (fetch_nothing hp), fun e rest hp => ⟨?_, ?_, ?_⟩⟩
  · exact fun i hd _ => step_of_fetch_run hl hq (fetch_run hp hd)
  · exact fun hd => step_of_fetch_bad hl hq (fetch_bad hp hd)
  · exact fun hd => step_of_fetch_bad hl hq (fetch_bad hp hd)

/-! ## Transitions that keep the configuration -/

/-- The registers `CONFIGURE` writes once (R29 to R32, R37). -/
def State.configuration (s : State) : Bool × Nat × List (BitVec 5) × DWord × Tick × Tick × Tick × DeMode :=
  (s.configured, s.count, s.addr, s.baud, s.tChar, s.period, s.deMargin, s.deMode)

theorem State.configuration_eq_iff {s t : State} : t.configuration = s.configuration ↔
    t.configured = s.configured ∧ t.count = s.count ∧ t.addr = s.addr ∧ t.baud = s.baud ∧
      t.tChar = s.tChar ∧ t.period = s.period ∧ t.deMargin = s.deMargin ∧ t.deMode = s.deMode := by
  simp [State.configuration]

/-- A transition from `s` to `t` keeps the valuation, the sticky flag once it is set, and the registers of
a configured block (R9, R29, R31, R38). -/
structure KeepsConfiguration (s t : State) : Prop where
  cfg : t.cfg = s.cfg
  abandoned : s.gateAbandoned = true → t.gateAbandoned = true
  registers : s.configured = true → t.configuration = s.configuration

namespace KeepsConfiguration

theorem trans {s t u : State} (h : KeepsConfiguration s t) (h' : KeepsConfiguration t u) :
    KeepsConfiguration s u where
  cfg := h'.cfg.trans h.cfg
  abandoned ha := h'.abandoned (h.abandoned ha)
  registers hc :=
    have hr := h.registers hc
    have ht : t.configured = true := (State.configuration_eq_iff.mp hr).1.trans hc
    (h'.registers ht).trans hr

/-- One gate sample can set the sticky flag and cannot clear it. -/
theorem afterGate (s : State) : KeepsConfiguration s s.afterGate where
  cfg := rfl
  abandoned ha := by simp [State.afterGate, ha]
  registers _ := rfl

theorem transmit (s : State) : KeepsConfiguration s s.transmit := by
  rw [State.transmit_eq]
  exact ⟨rfl, id, fun _ => rfl⟩

theorem receive (s : State) : KeepsConfiguration s s.receive := by
  rw [State.receive_eq]
  exact ⟨rfl, id, fun _ => rfl⟩

/-- A `SEND` up to the end of its transmission: the gate's last sample, the wrap, the telegram. -/
theorem sent (s : State) : KeepsConfiguration s s.selected.transmit :=
  have wrap : KeepsConfiguration s.afterGate s.selected := ⟨rfl, id, fun _ => rfl⟩
  ((afterGate s).trans wrap).trans (transmit s.selected)

theorem scan (s : State) : KeepsConfiguration s s.scan := (sent s).trans (receive _)

/-- Where the sequencer goes on is no part of the configuration, and neither is the response. -/
theorem toSeq {s t : State} (h : KeepsConfiguration s t) (q : Seq) : KeepsConfiguration s (t.toSeq q) :=
  ⟨h.cfg, h.abandoned, h.registers⟩

theorem respond {s t : State} (h : KeepsConfiguration s t) (c : Code) (v : Word) :
    KeepsConfiguration s (t.respond c v) :=
  ⟨h.cfg, h.abandoned, h.registers⟩

end KeepsConfiguration

/-! ## Every operation and every step keeps the configuration -/

theorem sendLoop_keepsConfiguration {s t : State} (h : sendLoop s = .next t) : KeepsConfiguration s t := by
  rcases sendLoop_next h with ⟨_, rfl⟩ | ⟨_, _, rfl⟩
  · exact (KeepsConfiguration.afterGate s).toSeq _
  · exact ((KeepsConfiguration.sent s).toSeq _).respond _ _

theorem paramLoop_keepsConfiguration {idx : BitVec 4} {s t : State} (h : paramLoop idx s = .next t) :
    KeepsConfiguration s t := by
  rcases paramLoop_next h with ⟨_, rfl⟩ | ⟨_, _, _, rfl⟩ | ⟨_, _, _, rfl⟩
  · exact (KeepsConfiguration.afterGate s).toSeq _
  · exact (KeepsConfiguration.scan s).toSeq _
  · exact ((KeepsConfiguration.scan s).toSeq _).respond _ _

theorem setparam_keepsConfiguration {idx : BitVec 4} {request : Slave → Slave} {s t : State}
    (h : setparam idx request s = .next t) : KeepsConfiguration s t := by
  rcases setparam_next h with ⟨_, rfl⟩ | ⟨_, _, hloop⟩
  · exact ⟨rfl, id, fun _ => rfl⟩
  · have recorded : KeepsConfiguration s (s.updateSlave idx.toNat request) := ⟨rfl, id, fun _ => rfl⟩
    exact recorded.trans (paramLoop_keepsConfiguration hloop)

/-- A `CONFIGURE` that writes the registers ran in a block that was not configured (R171). -/
theorem execConfigure_keepsConfiguration {n : BitVec 4} {margin : Word} {baud : DWord} {s t : State}
    (h : exec (.configure n margin baud) s = .next t) : KeepsConfiguration s t := by
  obtain ⟨hc, _, ⟨e, rfl⟩ | ⟨_, _, _, rfl⟩⟩ := execConfigure_next h
  · exact ⟨rfl, id, fun _ => rfl⟩
  · exact ⟨rfl, id, fun hc' => absurd hc' (by simp [hc])⟩

theorem exec_keepsConfiguration {i : Instr} {s t : State} (h : exec i s = .next t) :
    KeepsConfiguration s t := by
  cases hb : i.isBus with
  | false =>
    rw [exec_other_frame hb h]
    exact ⟨rfl, id, fun _ => rfl⟩
  | true =>
    rcases Instr.isBus_cases hb s.cfg with ⟨n, margin, baud, rfl⟩ | rfl | rfl | ⟨idx, pke, vhi, vlo, hs⟩
    · exact execConfigure_keepsConfiguration h
    · exact sendLoop_keepsConfiguration (execSend_next h).2
    · obtain ⟨_, _, rfl⟩ := execReceive_next h
      exact (KeepsConfiguration.receive s).respond _ _
    · rw [exec_isSetparam hs] at h
      exact setparam_keepsConfiguration h

theorem step_keepsConfiguration {s t : State} (hl : s.resetLine = false) (h : step s = .next t) :
    KeepsConfiguration s t := by
  rcases step_next h with ⟨hr, _⟩ | ⟨_, _, h⟩ | ⟨idx, _, _, h⟩ | ⟨_, _, _, rfl⟩ | ⟨e, rest, i, _, _, _, _, h⟩
  · simp [hl] at hr
  · exact sendLoop_keepsConfiguration h
  · exact paramLoop_keepsConfiguration h
  · exact ⟨rfl, id, fun _ => rfl⟩
  · have accepted : KeepsConfiguration s (s.accept e rest) := ⟨rfl, id, fun _ => rfl⟩
    exact accepted.trans (exec_keepsConfiguration h)

/-- The valuation also survives the reset input (R9, R240). -/
theorem step_cfg {s t : State} (h : step s = .next t) : t.cfg = s.cfg := by
  cases hl : s.resetLine with
  | false => exact (step_keepsConfiguration hl h).cfg
  | true =>
    rw [step_of_resetLine hl] at h
    cases h
    rfl

/-- Settles O54: every step without the reset input keeps the configuration. -/
theorem configurationIsImmutable : Obligations.ConfigurationIsImmutable := by
  intro s t h
  refine ⟨step_cfg h, fun hl => (step_keepsConfiguration hl h).abandoned, fun hl hc => ?_⟩
  have hr := (step_keepsConfiguration hl h).registers hc
  obtain ⟨hconf, hrest⟩ := State.configuration_eq_iff.mp hr
  exact ⟨hconf.trans hc, hrest⟩

end Sys2Proof.Machine
end

section
/-! PROOFS. The family 10_state.md: reset has the tabulated values and the invariants (O7, O8, O9) and every step
keeps the invariant of R42 (O49); a slave record changes only by its writers (O41, O42); and a frame buffer's
content has one canonical form (O58). -/

namespace Sys2Proof

/-! ## The default valuation -/

theorem Config.nonzero_ne_zero (c : Code) : Config.nonzero c ≠ 0#32 := by
  unfold Config.nonzero
  split
  · decide
  · assumption

/-- The default valuation meets R8 and R10, whatever the open result codes are (D14). -/
theorem Config.default_valid : Config.default.Valid := by
  have codes : Config.default.rcCfgTooMany ≠ 0#32 ∧ Config.default.rcCfgNullList ≠ 0#32 ∧
      Config.default.rcCfgEmpty ≠ 0#32 :=
    ⟨Config.nonzero_ne_zero _, Config.nonzero_ne_zero _, Config.nonzero_ne_zero _⟩
  obtain ⟨htoo, hnull, hempty⟩ := codes
  exact ⟨by decide, by decide, by decide, by decide, by decide, by decide, by decide, by decide, by decide,
    by decide, by decide, htoo, hnull, hempty, rfl, rfl⟩

end Sys2Proof

namespace Sys2Proof.Machine

/-! ## The invariant of one record -/

namespace RecordOk

variable {c : Config} {n k : Nat} {r : Slave}

theorem of_not_pending (h : r.pending = false) : RecordOk c n k r := by
  constructor <;> simp [h]

theorem request {ak : BitVec 4} (p vhi vlo : Word) (r : Slave) (hk : k < n)
    (hak : ak = c.akChwPwe ∨ ak = c.akChdPwe) : RecordOk c n k (r.request (pkeOf ak p) vhi vlo) where
  configuredSlave _ := hk
  indZero _ := rfl
  taskCode _ := by
    show akOf (pkeOf ak p) = _ ∨ akOf (pkeOf ak p) = _
    rwa [akOf_pkeOf]
  bit11 _ := bit11_pkeOf ak p

/-- The request of a `SETPARAM_*` (R200 to R202). -/
theorem of_isSetparam {i : Instr} {idx : BitVec 4} {pke vhi vlo : Word} (h : IsSetparam c i idx pke vhi vlo)
    (r : Slave) (hk : k < n) : RecordOk c n k (r.request pke vhi vlo) := by
  cases h with
  | word => exact request _ _ _ r hk (.inl rfl)
  | dword => exact request _ _ _ r hk (.inr rfl)
  | float => exact request _ _ _ r hk (.inr rfl)

end RecordOk

/-! ## The two phases of a configured block -/

theorem State.sendPhase_iff {s : State} :
    s.sendPhase = true ↔ s.configured = true ∧ s.windowOpen = false := by
  simp [State.sendPhase]

theorem State.receivePhase_iff {s : State} :
    s.receivePhase = true ↔ s.configured = true ∧ s.windowOpen = true := by
  simp [State.receivePhase]

/-! ## What the invariant does not read, and where the sequencer goes on -/

namespace State.Inv

variable {s : State} (hi : s.Inv)
include hi

theorem respond (c : Code) (v : Word) : (s.respond c v).Inv := { hi with }

theorem afterDraw : s.afterDraw.Inv := { hi with }

theorem afterGate : s.afterGate.Inv := { hi with }

theorem accept (e : PortEntry) (rest : List PortEntry) : (s.accept e rest).Inv := { hi with }

theorem toSeq_idle : (s.toSeq .idle).Inv := { hi with sendPhase := nofun, paramPhase := nofun }

theorem toSeq_sendGate (hp : s.sendPhase = true) : (s.toSeq .sendGate).Inv :=
  { hi with sendPhase := fun _ => hp, paramPhase := nofun }

/-- With the window open the block is inside no command: a gate waits with it closed. -/
theorem seq_idle_of_windowOpen (hw : s.windowOpen = true) : s.seq = .idle := by
  have closed : ¬ s.sendPhase = true := by simp [State.sendPhase_iff, hw]
  cases hq : s.seq with
  | idle => rfl
  | sendGate => exact absurd (hi.sendPhase hq) closed
  | paramGate idx => exact absurd (hi.paramPhase idx hq).1 closed

end State.Inv

/-- Going on inside a `SETPARAM_*` in a state that would do between commands. -/
theorem State.Inv.paramGate_of_idle {s : State} {idx : BitVec 4} (hi : (s.toSeq .idle).Inv) (hp : s.sendPhase = true)
    (hr : s.inRange idx = true) (hpend : (s.slave idx.toNat).pending = true) :
    (s.toSeq (.paramGate idx)).Inv :=
  { hi with sendPhase := nofun, paramPhase := fun _ hq => by cases hq; exact ⟨hp, hr, hpend⟩ }

/-! ## Updates of one record -/

theorem State.updateInRange_of_inRange {s : State} {idx : BitVec 4} (h : s.inRange idx = true)
    (f : Slave → Slave) : s.updateInRange idx f = s.updateSlave idx.toNat f := if_pos h

theorem State.updateInRange_of_not_inRange {s : State} {idx : BitVec 4} (h : s.inRange idx = false)
    (f : Slave → Slave) : s.updateInRange idx f = s := by
  simp [State.updateInRange, h]

/-- An update in range writes the list of records only. -/
theorem State.updateInRange_frame (s : State) (idx : BitVec 4) (f : Slave → Slave) :
    { s with slaves := (s.updateInRange idx f).slaves } = s.updateInRange idx f := by
  unfold State.updateInRange
  split <;> rfl

theorem State.Inv.updateInRange {s : State} (hi : s.Inv) (hq : s.seq = .idle) (idx : BitVec 4)
    {f : Slave → Slave} (hf : ∀ r, idx.toNat < s.count → RecordOk s.cfg s.count idx.toNat r →
      RecordOk s.cfg s.count idx.toNat (f r)) : (s.updateInRange idx f).Inv := by
  cases hr : s.inRange idx with
  | false => rw [State.updateInRange_of_not_inRange hr]; exact hi
  | true =>
    have hlt : idx.toNat < s.count := (s.inRange_iff idx).mp hr
    rw [State.updateInRange_of_inRange hr]
    exact { hi with
      slavesLength := (s.updateSlave_length _ f).trans hi.slavesLength
      unconfigured := fun hc => absurd (hi.unconfigured hc).1 (Nat.ne_zero_of_lt hlt)
      records := fun k => by
        rw [State.slave_updateSlave]
        split
        · rename_i hk
          rw [hk.1]
          exact hf _ hlt (hi.records _)
        · exact hi.records k
      sendPhase := fun h => hi.sendPhase h
      paramPhase := fun _ h => by simp [hq] at h }

/-! ## Operations that do not work on the bus -/

theorem LocalEffect.inv {s t : State} {i : Instr} (hi : s.Inv) (hq : s.seq = .idle)
    (h : LocalEffect s t i) : State.Inv { s with slaves := t.slaves } := by
  cases h with
  | none _ h => rw [h]; exact hi
  | setpoint idx v _ h =>
    rw [h, State.updateInRange_frame]
    exact hi.updateInRange hq idx fun _ _ hr => { hr with }
  | setCtl idx m _ h =>
    rw [h, State.updateInRange_frame]
    exact hi.updateInRange hq idx fun _ _ hr => { hr with }
  | clrCtl idx m _ h =>
    rw [h, State.updateInRange_frame]
    exact hi.updateInRange hq idx fun _ _ hr => { hr with }
  | request idx ak p vhi vlo _ hak h =>
    rw [h, State.updateInRange_frame]
    exact hi.updateInRange hq idx fun r hk _ => .request p vhi vlo r hk hak
  | resolve idx _ h =>
    rw [h, State.updateInRange_frame]
    exact hi.updateInRange hq idx fun _ _ _ => .of_not_pending rfl

theorem exec_other_inv {i : Instr} {s t : State} (hi : s.Inv) (hq : s.seq = .idle) (hb : i.isBus = false)
    (h : exec i s = .next t) : t.Inv := by
  have hw : Memory.wf t.txbuf = true := by
    rcases exec_other_txbuf hb h with e | ⟨a, k, z, e⟩
    · rw [e]; exact hi.txbufWf
    · rw [e]; exact wf_encodeInto hi.txbufWf
  rw [exec_other_frame hb h]
  exact { (exec_local hb h).inv hi hq with txbufWf := hw }

/-! ## CONFIGURE -/

theorem State.Inv.configure {s : State} {n : BitVec 4} (hi : s.Inv) (hq : s.seq = .idle)
    (hc : s.configured = false) (hle : n.toNat ≤ s.cfg.maxSlaves) (hn : n.toNat ≠ 0) (margin : Word)
    (baud : DWord) : (s.configure n margin baud).Inv := by
  obtain ⟨_, _, _, _, hreset⟩ := hi.unconfigured hc
  exact { hi with
    addrLength := by
      have := hi.addrLength
      show (s.cfgAddrs n.toNat ++ s.addr.drop n.toNat).length = s.cfg.maxSlaves
      simp only [State.cfgAddrs, List.length_append, List.length_map, List.length_range, List.length_drop]
      omega
    countBound := hle
    cursorBound := Nat.zero_le _
    windowPhase := nofun
    closedPhase := fun _ _ => rfl
    configuredOk := fun _ => ⟨Nat.one_le_iff_ne_zero.mpr hn, rfl⟩
    unconfigured := nofun
    records := fun k => .of_not_pending (congrArg Slave.pending (hreset k))
    sendPhase := fun h => by cases hq.symm.trans h
    paramPhase := fun _ h => by cases hq.symm.trans h }

theorem execConfigure_inv {n : BitVec 4} {margin : Word} {baud : DWord} {s t : State} (hi : s.Inv)
    (hq : s.seq = .idle) (h : exec (.configure n margin baud) s = .next t) : t.Inv := by
  obtain ⟨hc, _, ⟨e, rfl⟩ | ⟨_, hle, hn, rfl⟩⟩ := execConfigure_next h
  · exact hi.respond _ _
  · exact (hi.configure hq hc hle hn margin baud).respond _ _

/-! ## A transmission and a reception -/

/-- The end of the gate: one more sample, and the cursor on a configured slave (R175, R176). -/
theorem State.Inv.selected {s : State} (hi : s.Inv) (hp : s.sendPhase = true) : s.selected.Inv := by
  obtain ⟨hc, hw⟩ := State.sendPhase_iff.mp hp
  exact { hi.afterGate with
    cursorBound := Nat.le_of_lt (hi.wrapped_lt hc)
    windowPhase := fun h => by cases hw.symm.trans h
    unconfigured := fun h => by cases hc.symm.trans h }

/-- A transmission opens the window with the line released (R177, R178). -/
theorem State.Inv.transmit {s : State} (hi : s.Inv) (hc : s.configured = true) (hlt : s.cursor < s.count)
    (hq : s.seq = .idle) : s.transmit.Inv := by
  rw [State.transmit_eq]
  exact { hi with
    windowPhase := fun _ => ⟨hc, hlt, rfl⟩
    closedPhase := nofun
    unconfigured := fun h => by cases hc.symm.trans h
    txbufWf := by dsimp only; exact wf_encodeInto hi.txbufWf
    sendPhase := fun h => by cases hq.symm.trans h
    paramPhase := fun _ h => by cases hq.symm.trans h }

theorem State.Inv.sent {s : State} (hi : s.Inv) (hp : s.sendPhase = true) (hq : s.seq = .idle) :
    s.selected.transmit.Inv :=
  have hc : s.configured = true := (State.sendPhase_iff.mp hp).1
  (hi.selected hp).transmit hc (hi.wrapped_lt hc) hq

/-- What `RECEIVE` writes, the records left as they come out (R179, R182). -/
theorem State.receive_frame (s : State) : s.receive =
    { s with
      slaves := s.receive.slaves
      rxIn := s.rxIn.tail
      draws := if s.rxIn.isEmpty then s.draws + 1 else s.draws
      rxbuf := Memory.writeAll s.rxbuf 0 s.rxBytes
      trace := s.trace ++ [.rxRead s.rxBytes, .de true]
      de := true
      cursor := s.cursor + 1
      windowOpen := false } := by
  rw [State.receive_eq]

theorem State.receive_slaves_length (s : State) : s.receive.slaves.length = s.slaves.length := by
  rw [State.receive_eq]
  cases s.accepted with
  | none => rfl
  | some t => exact List.length_modify ..

theorem State.Inv.receive_records {s : State} (hi : s.Inv) (k : Nat) :
    RecordOk s.cfg s.count k (s.receive.slave k) := by
  classical
  rw [State.receive_slave_frame hi.rxbufWf]
  split
  · exact .of_not_pending (by rw [Slave.accept_eq])
  · exact hi.records k

theorem State.Inv.receive {s : State} (hi : s.Inv) (hw : s.windowOpen = true) : s.receive.Inv := by
  obtain ⟨hc, hlt, _⟩ := hi.windowPhase hw
  have hq := hi.seq_idle_of_windowOpen hw
  have hbytes : 0 + s.rxBytes.length ≤ frameLen := by simp [State.rxBytes]
  rw [State.receive_frame]
  exact { hi with
    slavesLength := s.receive_slaves_length.trans hi.slavesLength
    cursorBound := hlt
    windowPhase := nofun
    closedPhase := fun _ _ => rfl
    unconfigured := fun h => by cases hc.symm.trans h
    records := hi.receive_records
    rxbufWf := Memory.wf_writeAll hi.rxbufWf hbytes
    sendPhase := fun h => by cases hq.symm.trans h
    paramPhase := fun _ h => by cases hq.symm.trans h }

/-! ## A step inside a SEND and inside a SETPARAM -/

theorem sendLoop_inv {s t : State} (hi : s.Inv) (hp : s.sendPhase = true) (h : sendLoop s = .next t) :
    t.Inv := by
  rcases sendLoop_next h with ⟨_, rfl⟩ | ⟨_, _, rfl⟩
  · exact hi.afterGate.toSeq_sendGate hp
  · rw [← State.scanStart_toSeq]
    exact (hi.toSeq_idle.sent hp rfl).respond _ _

/-- A scan ends in the phase of the next `SEND`. -/
theorem State.scan_sendPhase (s : State) : s.scan.sendPhase = s.configured := by
  unfold State.scan
  rw [State.receive_eq, State.transmit_eq]
  exact Bool.and_true _

theorem State.scan_count (s : State) : s.scan.count = s.count := by
  unfold State.scan
  rw [State.receive_eq, State.transmit_eq]
  rfl

theorem State.Inv.scan {s : State} (hi : s.Inv) (hp : s.sendPhase = true) : (s.scan.toSeq .idle).Inv := by
  rw [← State.scan_toSeq]
  exact (hi.toSeq_idle.sent hp rfl).receive (by rw [State.transmit_eq])

theorem paramLoop_inv {s t : State} {idx : BitVec 4} (hi : s.Inv) (hp : s.sendPhase = true)
    (hr : s.inRange idx = true) (hpend : (s.slave idx.toNat).pending = true)
    (h : paramLoop idx s = .next t) : t.Inv := by
  rcases paramLoop_next h with ⟨_, rfl⟩ | ⟨_, _, hstill, rfl⟩ | ⟨_, _, _, rfl⟩
  · exact .paramGate_of_idle hi.afterGate.toSeq_idle hp hr hpend
  · have hp' : s.scan.sendPhase = true := by
      rw [State.scan_sendPhase]
      exact (State.sendPhase_iff.mp hp).1
    have hr' : s.scan.inRange idx = true := by
      unfold State.inRange at hr ⊢
      rwa [State.scan_count]
    exact .paramGate_of_idle (hi.scan hp) hp' hr' hstill
  · exact (hi.scan hp).respond _ _

theorem setparam_inv {i : Instr} {idx : BitVec 4} {pke vhi vlo : Word} {s t : State} (hi : s.Inv)
    (hq : s.seq = .idle) (hs : IsSetparam s.cfg i idx pke vhi vlo) (h : exec i s = .next t) : t.Inv := by
  rw [exec_isSetparam hs] at h
  rcases setparam_next h with ⟨_, rfl⟩ | ⟨hr, hp, hloop⟩
  · exact hi.afterDraw.respond _ _
  · have recorded := hi.updateInRange hq idx fun r hk _ => .of_isSetparam hs r hk
    rw [State.updateInRange_of_inRange hr] at recorded
    have hlt : idx.toNat < s.slaves.length := Nat.lt_of_lt_of_le ((s.inRange_iff idx).mp hr) hi.count_le
    have hpend : ((s.updateSlave idx.toNat (Slave.request pke vhi vlo)).slave idx.toNat).pending = true := by
      rw [State.slave_updateSlave, if_pos ⟨rfl, hlt⟩]
      rfl
    exact paramLoop_inv recorded hp hr hpend hloop

/-! ## Every operation and every step -/

theorem exec_inv {i : Instr} {s t : State} (hi : s.Inv) (hq : s.seq = .idle) (h : exec i s = .next t) :
    t.Inv := by
  cases hb : i.isBus with
  | false => exact exec_other_inv hi hq hb h
  | true =>
    rcases Instr.isBus_cases hb s.cfg with ⟨n, margin, baud, rfl⟩ | rfl | rfl | ⟨idx, pke, vhi, vlo, hs⟩
    · exact execConfigure_inv hi hq h
    · obtain ⟨hp, hloop⟩ := execSend_next h
      exact sendLoop_inv hi hp hloop
    · obtain ⟨hp, _, rfl⟩ := execReceive_next h
      exact (hi.receive (State.receivePhase_iff.mp hp).2).respond _ _
    · exact setparam_inv hi hq hs h

theorem State.slave_resetWith (c : Config) (k : Nat) : (State.resetWith c).slave k = Slave.reset := by
  show (List.replicate c.maxSlaves Slave.reset).getD k Slave.reset = Slave.reset
  rw [List.getD_eq_getElem?_getD, List.getElem?_replicate]
  split <;> rfl

theorem State.addrAt_resetWith (c : Config) (k : Nat) : (State.resetWith c).addrAt k = 0#5 := by
  show (List.replicate c.maxSlaves 0#5).getD k 0#5 = 0#5
  rw [List.getD_eq_getElem?_getD, List.getElem?_replicate]
  split <;> rfl

theorem State.resetWith_inv {c : Config} (hc : c.Valid) : (State.resetWith c).Inv where
  params := hc
  slavesLength := List.length_replicate
  addrLength := List.length_replicate
  countBound := Nat.zero_le _
  cursorBound := Nat.le_refl 0
  windowPhase := nofun
  closedPhase := nofun
  configuredOk := nofun
  unconfigured _ := ⟨rfl, rfl, rfl, rfl, State.slave_resetWith c⟩
  records k := .of_not_pending (by rw [State.slave_resetWith]; rfl)
  txbufWf := rfl
  rxbufWf := rfl
  sendPhase := nofun
  paramPhase := nofun

/-- The reset input leaves what the host and the environment hold, of which the invariant says nothing. -/
theorem State.Inv.hardwareReset {s : State} (hi : s.Inv) : s.hardwareReset.Inv :=
  { State.resetWith_inv hi.params with }

/-- Settles O49: reset, a step inside a `SEND` or a `SETPARAM_*`, an empty port, or an operation. -/
theorem stepKeepsTheInvariant : Obligations.StepKeepsTheInvariant := by
  intro s t hi h
  rcases step_next h with ⟨_, rfl⟩ | ⟨_, hq, h⟩ | ⟨idx, _, hq, h⟩ | ⟨_, _, _, rfl⟩ | ⟨e, rest, i, _, hq, _, _, h⟩
  · exact hi.hardwareReset
  · exact sendLoop_inv hi (hi.sendPhase hq) h
  · obtain ⟨hp, hr, hpend⟩ := hi.paramPhase idx hq
    exact paramLoop_inv hi hp hr hpend h
  · exact hi
  · exact exec_inv (hi.accept e rest) hq h

/-! ## The state after reset -/

/-- Settles O7: the step is the reset input's, whose records and addresses are those of reset. -/
theorem resetInputRestoresResetState : Obligations.ResetInputRestoresResetState := by
  intro s hl
  exact ⟨s.hardwareReset, step_of_resetLine hl,
    rfl, rfl, State.addrAt_resetWith s.cfg, List.length_replicate,
    rfl, rfl, rfl, rfl,
    rfl, rfl, rfl,
    rfl, rfl, rfl,
    State.slave_resetWith s.cfg, List.length_replicate, rfl,
    rfl, rfl, rfl, rfl,
    rfl, rfl, rfl,
    rfl, rfl, rfl⟩

/-- Settles O8: the records and the addresses are lists of reset values, the rest are fields. -/
theorem resetLeavesTheTabulatedValues : Obligations.ResetLeavesTheTabulatedValues := by
  intro c s
  exact ⟨rfl, rfl, State.addrAt_resetWith c, rfl, rfl, rfl, rfl, rfl, rfl, rfl, rfl, rfl,
    List.length_replicate, List.length_replicate, rfl, State.slave_resetWith c⟩

theorem State.resetWith_hostOnly (c : Config) : (State.resetWith c).HostOnly where
  commands := nofun
  onlyPending k hp := by
    rw [State.slave_resetWith] at hp
    cases hp

theorem State.resetWith_busOrder (c : Config) : (State.resetWith c).BusOrder where
  off _ := rfl
  window := nofun
  closed := nofun

theorem State.resetWith_periodOk (c : Config) : (State.resetWith c).PeriodOk where
  unconfigured _ := ⟨rfl, rfl⟩
  armed := ⟨rfl, rfl⟩
  excused := rfl
  sticky := rfl

/-- Settles O9: an empty trace, an empty port and records without a request. -/
theorem resetMeetsTheInvariants : Obligations.ResetMeetsTheInvariants :=
  ⟨Config.default_valid, fun c hc => ⟨State.resetWith_inv hc, State.resetWith_hostOnly c,
    State.resetWith_busOrder c, State.resetWith_periodOk c⟩⟩

/-! ## The bus commands on the records -/

theorem exec_configure_slaves {n : BitVec 4} {margin : Word} {baud : DWord} {s t : State}
    (h : exec (.configure n margin baud) s = .next t) : t.slaves = s.slaves := by
  obtain ⟨_, _, ⟨e, rfl⟩ | ⟨_, _, _, rfl⟩⟩ := execConfigure_next h
  · rfl
  · rfl

/-- `SEND` changes no field of any record, whether its gate waits or ends (R27). -/
theorem exec_send_slaves {s t : State} (h : exec .send s = .next t) : t.slaves = s.slaves := by
  rcases sendLoop_next (execSend_next h).2 with ⟨_, rfl⟩ | ⟨_, _, rfl⟩
  · rfl
  · rw [State.respond_slaves, State.toSeq_slaves, State.scanStart_slaves]

/-- What an accepted frame stores: its two PZD words, and the request is resolved (R180). -/
def Slave.afterAccepted (f : List Byte) (r : Slave) : Slave :=
  { r with status := frameWordAt f 11, actual := frameWordAt f 13, pending := false }

theorem Slave.accept_extractTelegram (f : List Byte) (r : Slave) :
    r.accept (extractTelegram f) = r.afterAccepted f :=
  Slave.accept_eq _ r

/-- `RECEIVE` on the records: an accepted frame is stored in the cursor's, every other one is kept. -/
theorem exec_receive_slave {s t : State} (hi : s.Inv) (h : exec .receive s = .next t) (k : Nat)
    [Decidable (FrameFrom s.cfg (s.addrAt s.cursor) s.rxBytes)] :
    t.slave k = if FrameFrom s.cfg (s.addrAt s.cursor) s.rxBytes ∧ k = s.cursor
      then (s.slave k).afterAccepted s.rxBytes else s.slave k := by
  obtain ⟨_, hlt, rfl⟩ := execReceive_next h
  have hlen : s.cursor < s.slaves.length := Nat.lt_of_lt_of_le hlt hi.count_le
  rw [State.respond_slave, State.receive_slave_frame hi.rxbufWf, Slave.accept_extractTelegram]
  simp only [hlen, and_true]
  split
  · rename_i hk
    rw [hk.2]
  · rfl

/-- Settles O42: the record of the cursor's slave, by whether the frame is accepted. -/
theorem statusAndActualAreOfTheLastAcceptedFrame : Obligations.StatusAndActualAreOfTheLastAcceptedFrame := by
  classical
  intro s k hi hw
  have hexec := exec_receive_open hi hw
  have hslave := exec_receive_slave hi hexec k
  refine ⟨_, hexec, fun hk hf => ?_, fun hn => ?_⟩
  · rw [hk] at hf hslave ⊢
    rw [hslave, if_pos ⟨hf, rfl⟩]
    exact ⟨rfl, rfl⟩
  · have : ¬ (FrameFrom s.cfg (s.addrAt s.cursor) s.rxBytes ∧ k = s.cursor) := fun hk =>
      hn.elim (· hk.2) (· hk.1)
    rw [hslave, if_neg this]
    exact ⟨rfl, rfl⟩

/-! ## Every way one operation changes one record -/

theorem Instr.requests_isSetparam {c : Config} {i : Instr} {idx : BitVec 4} {pke vhi vlo : Word}
    (h : IsSetparam c i idx pke vhi vlo) (k : Nat) : i.requests k = decide (idx.toNat = k) := by
  cases h <;> rfl

/-- The changes an operation `i`, executed in `s`, can make to the record `q` of slave `k`; the second index is
the record after it (R20, R27). -/
inductive RecordChange (s : State) (i : Instr) (k : Nat) (q : Slave) : Slave → Prop where
  | kept : RecordChange s i k q q
  | ctl (idx : BitVec 4) (m w : Word) (hk : idx.toNat = k) (hi : i = .setCtl idx m ∨ i = .clrCtl idx m) :
      RecordChange s i k q { q with ctl := w }
  | setpoint (idx : BitVec 4) (v : Word) (hk : idx.toNat = k) (hi : i = .setSetpoint idx v) :
      RecordChange s i k q { q with setpoint := v }
  | request (idx : BitVec 4) (p : Word) (pke vhi vlo : Word) (hk : idx.toNat = k)
      (hi : (∃ w, i = .reqW idx p w) ∨ ∃ v, i = .reqD idx p v ∨ i = .reqF idx p v) :
      RecordChange s i k q (q.request pke vhi vlo)
  | resolve (hr : i.requests k = true) : RecordChange s i k q q.resolve
  | received (hi : i = .receive) (hk : s.cursor = k) : RecordChange s i k q (q.afterAccepted s.rxBytes)
  | recorded (idx : BitVec 4) (pke vhi vlo : Word) (hs : IsSetparam s.cfg i idx pke vhi vlo)
      (hk : idx.toNat = k) : RecordChange s i k q (q.request pke vhi vlo)
  | scanned (idx : BitVec 4) (pke vhi vlo : Word) (f : List Byte) (hs : IsSetparam s.cfg i idx pke vhi vlo)
      (hw : s.wrapped = k) : RecordChange s i k q (q.afterAccepted f)
  | recordedScanned (idx : BitVec 4) (pke vhi vlo : Word) (f : List Byte)
      (hs : IsSetparam s.cfg i idx pke vhi vlo) (hk : idx.toNat = k) (hw : s.wrapped = k) :
      RecordChange s i k q ((q.request pke vhi vlo).afterAccepted f)

/-- An update in range reaches the record of its index or leaves it. -/
theorem State.updateInRange_slave_cases (s : State) (idx : BitVec 4) (f : Slave → Slave) (k : Nat) :
    (s.updateInRange idx f).slave k = s.slave k ∨
      (idx.toNat = k ∧ (s.updateInRange idx f).slave k = f (s.slave k)) := by
  rw [State.updateInRange_slave]
  split
  · rename_i h
    exact .inr ⟨h.1.symm, rfl⟩
  · exact .inl rfl

/-- A record that an update in range can have reached. -/
theorem RecordChange.of_updateInRange {s t : State} {i : Instr} {k : Nat} {idx : BitVec 4} {f : Slave → Slave}
    (h : t.slaves = (s.updateInRange idx f).slaves)
    (hf : idx.toNat = k → RecordChange s i k (s.slave k) (f (s.slave k))) :
    RecordChange s i k (s.slave k) (t.slave k) := by
  rw [State.slave_congr h]
  rcases s.updateInRange_slave_cases idx f k with e | ⟨hk, e⟩
  · rw [e]; exact .kept
  · rw [e]; exact hf hk

theorem LocalEffect.recordChange {s t : State} {i : Instr} (h : LocalEffect s t i) (k : Nat) :
    RecordChange s i k (s.slave k) (t.slave k) := by
  cases h with
  | none _ h => rw [State.slave_congr h]; exact .kept
  | setpoint idx v hi h => exact .of_updateInRange h fun hk => .setpoint idx v hk hi
  | setCtl idx m hi h => exact .of_updateInRange h fun hk => .ctl idx m _ hk (.inl hi)
  | clrCtl idx m hi h => exact .of_updateInRange h fun hk => .ctl idx m _ hk (.inr hi)
  | request idx ak p vhi vlo hi _ h => exact .of_updateInRange h fun hk => .request idx p _ _ _ hk hi
  | resolve idx hr h => exact .of_updateInRange h fun hk => .resolve (by rw [hr k]; exact decide_eq_true hk)

theorem exec_isSetparam_recordChange {s t : State} {i : Instr} {idx : BitVec 4} {pke vhi vlo : Word}
    (hinv : s.Inv) (hs : IsSetparam s.cfg i idx pke vhi vlo) (h : exec i s = .next t) (k : Nat) :
    RecordChange s i k (s.slave k) (t.slave k) := by
  rw [exec_isSetparam hs] at h
  have key := setparam_slave hinv.rxbufWf h k
  simp only [Slave.accept_extractTelegram] at key
  by_cases hk : k = idx.toNat ∧ idx.toNat < s.count ∧ idx.toNat < s.slaves.length
  · rw [if_pos hk] at key
    rcases key with e | ⟨_, hw, e⟩
    · rw [e]; exact .recorded idx _ _ _ hs hk.1.symm
    · rw [e]; exact .recordedScanned idx _ _ _ _ hs hk.1.symm hw.symm
  · rw [if_neg hk] at key
    rcases key with e | ⟨_, hw, e⟩
    · rw [e]; exact .kept
    · rw [e]; exact .scanned idx _ _ _ _ hs hw.symm

theorem exec_recordChange {s t : State} {i : Instr} (hinv : s.Inv) (h : exec i s = .next t) (k : Nat) :
    RecordChange s i k (s.slave k) (t.slave k) := by
  classical
  cases hb : i.isBus with
  | false => exact (exec_local hb h).recordChange k
  | true =>
    rcases Instr.isBus_cases hb s.cfg with ⟨n, margin, baud, rfl⟩ | rfl | rfl | ⟨idx, pke, vhi, vlo, hs⟩
    · rw [State.slave_congr (exec_configure_slaves h)]; exact .kept
    · rw [State.slave_congr (exec_send_slaves h)]; exact .kept
    · rw [exec_receive_slave hinv h k]
      split
      · rename_i hk
        exact .received rfl hk.2.symm
      · exact .kept
    · exact exec_isSetparam_recordChange hinv hs h k

/-! ## The writers of each field -/

namespace RecordChange

variable {s : State} {i : Instr} {k : Nat} {q r : Slave} (h : RecordChange s i k q r)
include h

theorem ctl_eq (hn : ∀ idx m, idx.toNat = k → i ≠ .setCtl idx m ∧ i ≠ .clrCtl idx m) : r.ctl = q.ctl := by
  cases h with
  | ctl idx m w hk hi =>
    obtain ⟨hset, hclr⟩ := hn idx m hk
    exact absurd hi (not_or.mpr ⟨hset, hclr⟩)
  | _ => rfl

theorem setpoint_eq (hn : ∀ idx v, idx.toNat = k → i ≠ .setSetpoint idx v) : r.setpoint = q.setpoint := by
  cases h with
  | setpoint idx v hk hi => exact absurd hi (hn idx v hk)
  | _ => rfl

theorem request_eq
    (hreq : ∀ idx p w v, idx.toNat = k → i ≠ .reqW idx p w ∧ i ≠ .reqD idx p v ∧ i ≠ .reqF idx p v)
    (hset : ∀ idx pke vhi vlo, IsSetparam s.cfg i idx pke vhi vlo → idx.toNat ≠ k) :
    r.pke = q.pke ∧ r.ind = q.ind ∧ r.vhi = q.vhi ∧ r.vlo = q.vlo := by
  cases h with
  | request idx p pke vhi vlo hk hi =>
    rcases hi with ⟨w, hi⟩ | ⟨v, hi | hi⟩
    · exact absurd hi (hreq idx p w 0#32 hk).1
    · exact absurd hi (hreq idx p 0#16 v hk).2.1
    · exact absurd hi (hreq idx p 0#16 v hk).2.2
  | recorded idx pke vhi vlo hs hk => exact absurd hk (hset idx pke vhi vlo hs)
  | recordedScanned idx pke vhi vlo f hs hk hw => exact absurd hk (hset idx pke vhi vlo hs)
  | _ => exact ⟨rfl, rfl, rfl, rfl⟩

/-- Without a `RECEIVE` while the cursor is on the slave, alone or in a scan, `status` and `actual` stay, and
`pending` does unless the operation is a request for it or its resolution. -/
theorem received_eq (hrec : ¬ (i = .receive ∧ s.cursor = k))
    (hscan : ¬ ((∃ idx pke vhi vlo, IsSetparam s.cfg i idx pke vhi vlo) ∧ s.wrapped = k)) :
    r.status = q.status ∧ r.actual = q.actual ∧ (i.requests k = false → r.pending = q.pending) := by
  cases h with
  | received hi hk => exact absurd ⟨hi, hk⟩ hrec
  | scanned idx pke vhi vlo f hs hw => exact absurd ⟨⟨idx, pke, vhi, vlo, hs⟩, hw⟩ hscan
  | recordedScanned idx pke vhi vlo f hs hk hw => exact absurd ⟨⟨idx, pke, vhi, vlo, hs⟩, hw⟩ hscan
  | request idx p pke vhi vlo hk hi =>
    have hr : i.requests k = true := by
      rcases hi with ⟨w, rfl⟩ | ⟨v, rfl | rfl⟩ <;> exact decide_eq_true hk
    exact ⟨rfl, rfl, fun hn => by cases hn.symm.trans hr⟩
  | recorded idx pke vhi vlo hs hk =>
    have hr : i.requests k = true := (Instr.requests_isSetparam hs k).trans (decide_eq_true hk)
    exact ⟨rfl, rfl, fun hn => by cases hn.symm.trans hr⟩
  | resolve hr => exact ⟨rfl, rfl, fun hn => by cases hn.symm.trans hr⟩
  | _ => exact ⟨rfl, rfl, fun _ => rfl⟩

end RecordChange

/-- Settles O41: the writers of each field, read off what one operation can do to one record. -/
theorem recordsPersist : Obligations.RecordsPersist := by
  classical
  intro s t i k hinv h
  have change := exec_recordChange hinv h k
  refine ⟨change.ctl_eq, change.setpoint_eq, change.request_eq, change.received_eq, ?_, ?_, ?_⟩
  · rintro rfl
    exact State.slave_congr (exec_send_slaves h) k
  · rintro rfl hk
    rw [exec_receive_slave hinv h k, if_neg fun hc => hk hc.2]
  · rintro rfl
    rw [exec_receive_slave hinv h k]
    split <;> rfl

/-! ## The frame buffers -/

namespace Memory

theorem sortedFrom_cons_iff {lo hi a : Nat} {b : Byte} {r : Memory} :
    sortedFrom lo hi ((a, b) :: r) = true ↔
      lo ≤ a ∧ a < hi ∧ b ≠ 0#8 ∧ sortedFrom (a + 1) hi r = true := by
  simp [sortedFrom, and_assoc]

theorem read_cons_self (a : Nat) (b : Byte) (r : Memory) : read ((a, b) :: r) a = b := by
  rw [read_cons, if_pos rfl]

/-- The first listed offset of a canonical buffer is one that any buffer reading alike lists. -/
theorem le_head_of_read_eq {lo hi a : Nat} {b : Byte} {r m : Memory} (hb : b ≠ 0#8)
    (hm : sortedFrom lo hi m = true) (heq : ∀ o, read ((a, b) :: r) o = read m o) : lo ≤ a := by
  by_contra hlt
  have := heq a
  rw [read_cons_self, read_below hm (by omega)] at this
  exact hb this

/-- Two canonical buffers that read alike are the same data. -/
theorem eq_of_read_eq {hi : Nat} {m m' : Memory} {lo : Nat} (hm : sortedFrom lo hi m = true)
    (hm' : sortedFrom lo hi m' = true) (heq : ∀ o, read m o = read m' o) : m = m' := by
  induction m generalizing lo m' with
  | nil =>
    cases m' with
    | nil => rfl
    | cons p' r' =>
      obtain ⟨a', b'⟩ := p'
      obtain ⟨_, _, hb', _⟩ := sortedFrom_cons_iff.mp hm'
      exact absurd ((read_cons_self a' b' r').symm.trans (heq a').symm) hb'
  | cons p r ih =>
    obtain ⟨a, b⟩ := p
    obtain ⟨hlo, hhi, hb, hr⟩ := sortedFrom_cons_iff.mp hm
    cases m' with
    | nil => exact absurd ((read_cons_self a b r).symm.trans (heq a)) hb
    | cons p' r' =>
      obtain ⟨a', b'⟩ := p'
      obtain ⟨_, hhi', hb', hr'⟩ := sortedFrom_cons_iff.mp hm'
      have ha' : a' ≤ a :=
        le_head_of_read_eq hb (sortedFrom_cons_iff.mpr ⟨Nat.le_refl _, hhi', hb', hr'⟩) heq
      have ha : a ≤ a' :=
        le_head_of_read_eq hb' (sortedFrom_cons_iff.mpr ⟨Nat.le_refl _, hhi, hb, hr⟩) fun o => (heq o).symm
      obtain rfl : a = a' := Nat.le_antisymm ha ha'
      have hbb : b = b' := by simpa only [read_cons_self] using heq a
      have tails : ∀ o, read r o = read r' o := by
        intro o
        by_cases ho : o = a
        · rw [ho, read_below hr (Nat.lt_succ_self a), read_below hr' (Nat.lt_succ_self a)]
        · have := heq o
          rwa [read_cons, read_cons, if_neg ho, if_neg ho] at this
      rw [hbb, ih hr hr' tails]

end Memory

/-- Settles O58: beyond offset 15 a canonical buffer reads 0, so two that agree below it agree everywhere. -/
theorem frameBuffersReadWhatWasWritten : Obligations.FrameBuffersReadWhatWasWritten := by
  intro m hm
  refine ⟨fun a o b ha => ⟨Memory.wf_write hm ha, Memory.read_write hm a o b⟩, fun m' hm' heq => ?_⟩
  refine Memory.eq_of_read_eq hm hm' fun o => ?_
  by_cases ho : o < 16
  · exact heq o ho
  · rw [Memory.read_beyond hm (by omega), Memory.read_beyond hm' (by omega)]

end Sys2Proof.Machine
end

section
/-! PROOFS. The family 20_memory.md: a step inside a `SEND` samples its gate again (O5), and every step keeps the
one order of the interface events (O51). -/

namespace Sys2Proof.Machine

/-! ## A step inside a SEND -/

theorem step_of_sendGate {s : State} (hl : s.resetLine = false) (hq : s.seq = .sendGate) :
    step s = sendLoop s := by
  simp [step, hl, hq]

theorem exec_send_of_sendPhase {s : State} (hp : s.sendPhase = true) : exec .send s = sendLoop s :=
  if_pos hp

/-- Settles O5: the sequencer waits in a gate only in the phase in which a `SEND` may come. -/
theorem stepContinuesAWaitingSend : Obligations.StepContinuesAWaitingSend := by
  intro s hi hl hq
  rw [step_of_sendGate hl hq, exec_send_of_sendPhase (hi.sendPhase hq)]

/-! ## Following the trace over the events of one operation -/

/-- Follow a list of events from the place `p` of the order; `none` once one is out of order. -/
def BusPhase.afterAll (p : BusPhase) (events : List Event) : Option BusPhase :=
  events.foldl (fun p e => p.bind fun q => q.after e) (some p)

theorem busPhase_append {l : List Event} {p : BusPhase} (h : busPhase l = some p) (events : List Event) :
    busPhase (l ++ events) = p.afterAll events := by
  unfold busPhase at h ⊢
  rw [List.foldl_append, h, BusPhase.afterAll]

theorem BusPhase.afterAll_cons {p q : BusPhase} {e : Event} (h : p.after e = some q) (events : List Event) :
    p.afterAll (e :: events) = q.afterAll events := by
  simp [BusPhase.afterAll, h]

/-- After a gate sample a 16-byte telegram goes out, the line is asserted, held and released, and the clock
is sampled to re-arm the gate (R177, R178). -/
theorem BusPhase.afterAll_sendEvents (s : State) {bytes : List Byte} (h : bytes.length = frameLen) (t : Tick) :
    BusPhase.sampled.afterAll (s.sendEvents bytes t) = some .window := by
  have written : BusPhase.sampled.after (.txWrite bytes) = some .written := if_pos h
  exact BusPhase.afterAll_cons written _

/-- In the window one read of at most 16 bytes comes, and the line is asserted again (R182). -/
theorem BusPhase.afterAll_receiveEvents {bytes : List Byte} (h : bytes.length ≤ frameLen) :
    BusPhase.window.afterAll [.rxRead bytes, .de true] = some .ready := by
  have read : BusPhase.window.after (.rxRead bytes) = some .read := if_pos h
  exact BusPhase.afterAll_cons read _

/-! ## Where the trace stands after each part of a scan -/

/-- The trace stands where a gate may sample the clock: no telegram is on its way. -/
def State.AtGate (s : State) : Prop := busPhase s.trace = some .ready ∨ busPhase s.trace = some .sampled

@[simp] theorem State.afterGate_trace (s : State) : s.afterGate.trace = s.trace ++ [.now s.nowValue] := rfl

theorem State.AtGate.afterGate {s : State} (h : s.AtGate) : busPhase s.afterGate.trace = some .sampled := by
  rw [State.afterGate_trace]
  rcases h with h | h
  · exact busPhase_append h _
  · exact busPhase_append h _

theorem State.busPhase_transmit {s : State} (h : busPhase s.trace = some .sampled) :
    busPhase s.transmit.trace = some .window := by
  rw [State.transmit_eq]
  exact (busPhase_append h _).trans (BusPhase.afterAll_sendEvents s (Memory.length_bytes _ _) _)

theorem State.busPhase_receive {s : State} (h : busPhase s.trace = some .window) :
    busPhase s.receive.trace = some .ready := by
  rw [State.receive_eq]
  exact (busPhase_append h _).trans (BusPhase.afterAll_receiveEvents (List.length_take_le _ _))

theorem State.AtGate.sent {s : State} (h : s.AtGate) : busPhase s.selected.transmit.trace = some .window :=
  State.busPhase_transmit (s := s.selected) h.afterGate

theorem State.AtGate.scan {s : State} (h : s.AtGate) : busPhase s.scan.trace = some .ready := by
  unfold State.scan
  exact State.busPhase_receive h.sent

theorem State.configure_trace (s : State) (n : BitVec 4) (margin : Word) (baud : DWord) :
    (s.configure n margin baud).trace = s.trace ++ [.pinMode, .de true] := by
  simp [State.configure]

theorem State.scanStart_receivePhase (s : State) : s.selected.transmit.receivePhase = s.configured := by
  rw [State.transmit_eq]
  exact Bool.and_true _

theorem State.receive_sendPhase (s : State) : s.receive.sendPhase = s.configured := by
  rw [State.receive_eq]
  exact Bool.and_true _

@[simp] theorem State.toSeq_sendPhase (s : State) (q : Seq) : (s.toSeq q).sendPhase = s.sendPhase := rfl

@[simp] theorem State.toSeq_receivePhase (s : State) (q : Seq) : (s.toSeq q).receivePhase = s.receivePhase := rfl

/-! ## The event order in each phase of the block -/

namespace State.BusOrder

variable {s : State}

theorem of_receivePhase (hp : s.receivePhase = true) (h : busPhase s.trace = some .window) : s.BusOrder :=
  have ⟨hc, hw⟩ := State.receivePhase_iff.mp hp
  { off := fun hc' => by cases hc.symm.trans hc'
    window := fun _ => h
    closed := fun _ hw' => by cases hw.symm.trans hw' }

theorem of_sendPhase (hp : s.sendPhase = true)
    (h : busPhase s.trace = some .ready ∨ (busPhase s.trace = some .sampled ∧ s.seq ≠ .idle)) : s.BusOrder :=
  have ⟨hc, hw⟩ := State.sendPhase_iff.mp hp
  { off := fun hc' => by cases hc.symm.trans hc'
    window := fun hw' => by cases hw.symm.trans hw'
    closed := fun _ _ => h }

theorem respond (h : s.BusOrder) (c : Code) (v : Word) : (s.respond c v).BusOrder := { h with }

theorem atGate (h : s.BusOrder) (hp : s.sendPhase = true) : s.AtGate :=
  have ⟨hc, hw⟩ := State.sendPhase_iff.mp hp
  (h.closed hc hw).imp_right And.left

/-- A waiting gate keeps the sequencer inside its command, which is what the order asks of a sample. -/
theorem waiting (hp : s.sendPhase = true) (hg : s.AtGate) {q : Seq} (hq : q ≠ .idle) :
    (s.afterGate.toSeq q).BusOrder := by
  refine of_sendPhase hp (.inr ⟨?_, hq⟩)
  rw [State.toSeq_trace]
  exact hg.afterGate

theorem sent (hp : s.sendPhase = true) (hg : s.AtGate) (q : Seq) : (s.selected.transmit.toSeq q).BusOrder := by
  refine of_receivePhase ?_ ?_
  · rw [State.toSeq_receivePhase, State.scanStart_receivePhase]
    exact (State.sendPhase_iff.mp hp).1
  · rw [State.toSeq_trace]
    exact hg.sent

theorem scan (hp : s.sendPhase = true) (hg : s.AtGate) (q : Seq) : (s.scan.toSeq q).BusOrder := by
  refine of_sendPhase ?_ (.inl ?_)
  · rw [State.toSeq_sendPhase, State.scan_sendPhase]
    exact (State.sendPhase_iff.mp hp).1
  · rw [State.toSeq_trace]
    exact hg.scan

theorem receive (h : s.BusOrder) (hp : s.receivePhase = true) : s.receive.BusOrder :=
  have ⟨hc, hw⟩ := State.receivePhase_iff.mp hp
  of_sendPhase (s.receive_sendPhase.trans hc) (.inl (State.busPhase_receive (h.window hw)))

/-- `CONFIGURE` runs before any event has come, and leaves the line asserted (R173). -/
theorem configure (h : s.BusOrder) (hc : s.configured = false) (n : BitVec 4) (margin : Word) (baud : DWord) :
    (s.configure n margin baud).BusOrder := by
  refine of_sendPhase rfl (.inl ?_)
  rw [State.configure_trace]
  exact busPhase_append (h.off hc) _

end State.BusOrder

/-! ## Every operation and every step keeps the event order -/

theorem sendLoop_busOrder {s t : State} (hp : s.sendPhase = true) (hg : s.AtGate) (h : sendLoop s = .next t) :
    t.BusOrder := by
  rcases sendLoop_next h with ⟨_, rfl⟩ | ⟨_, _, rfl⟩
  · exact .waiting hp hg nofun
  · exact (State.BusOrder.sent hp hg _).respond _ _

theorem paramLoop_busOrder {idx : BitVec 4} {s t : State} (hp : s.sendPhase = true) (hg : s.AtGate)
    (h : paramLoop idx s = .next t) : t.BusOrder := by
  rcases paramLoop_next h with ⟨_, rfl⟩ | ⟨_, _, _, rfl⟩ | ⟨_, _, _, rfl⟩
  · exact .waiting hp hg nofun
  · exact .scan hp hg _
  · exact (State.BusOrder.scan hp hg _).respond _ _

theorem setparam_busOrder {idx : BitVec 4} {request : Slave → Slave} {s t : State} (ho : s.BusOrder)
    (h : setparam idx request s = .next t) : t.BusOrder := by
  rcases setparam_next h with ⟨_, rfl⟩ | ⟨_, hp, hloop⟩
  · exact { ho with }
  · exact paramLoop_busOrder (s := s.updateSlave idx.toNat request) hp (ho.atGate hp) hloop

theorem exec_busOrder {i : Instr} {s t : State} (ho : s.BusOrder) (h : exec i s = .next t) : t.BusOrder := by
  cases hb : i.isBus with
  | false =>
    rw [exec_other_frame hb h]
    exact { ho with }
  | true =>
    rcases Instr.isBus_cases hb s.cfg with ⟨n, margin, baud, rfl⟩ | rfl | rfl | ⟨idx, pke, vhi, vlo, hs⟩
    · obtain ⟨hc, _, ⟨e, rfl⟩ | ⟨_, _, _, rfl⟩⟩ := execConfigure_next h
      · exact ho.respond _ _
      · exact (ho.configure hc n margin baud).respond _ _
    · obtain ⟨hp, hloop⟩ := execSend_next h
      exact sendLoop_busOrder hp (ho.atGate hp) hloop
    · obtain ⟨hp, _, rfl⟩ := execReceive_next h
      exact (ho.receive hp).respond _ _
    · rw [exec_isSetparam hs] at h
      exact setparam_busOrder ho h

/-- Settles O51: inside a command the invariant gives the phase; an idle block runs an operation, which keeps the
order from any state that has it. -/
theorem stepKeepsTheEventOrder : Obligations.StepKeepsTheEventOrder := by
  intro s t hi ho h
  rcases step_next h with ⟨_, rfl⟩ | ⟨_, hq, h⟩ | ⟨idx, _, hq, h⟩ | ⟨_, _, _, rfl⟩ | ⟨e, rest, i, _, _, _, _, h⟩
  · exact { State.resetWith_busOrder s.cfg with }
  · have hp := hi.sendPhase hq
    exact sendLoop_busOrder hp (ho.atGate hp) h
  · obtain ⟨hp, _, _⟩ := hi.paramPhase idx hq
    exact paramLoop_busOrder hp (ho.atGate hp) h
  · exact ho
  · have accepted : (s.accept e rest).BusOrder := { ho with }
    exact exec_busOrder accepted h

end Sys2Proof.Machine
end

section
/-! PROOFS. The family 30_encoding.md: decoding undoes encoding (O1) and answers only well-formed operations (O2);
words of the spec's programs (O3); which CMD words are refused for their word (O47, O48); the answer of `NO_TASK`
(O21); and the one response of a host command (O55). -/

namespace Sys2Proof

/-! ## CMD words -/

/-- The opcode as R92 reads it from the number itself. -/
theorem toNat_cmdOp (w : BitVec 64) : (cmdOp w).toNat = w.toNat / 2 ^ 60 := by
  rw [cmdOp, BitVec.extractLsb'_toNat, Nat.shiftRight_eq_div_pow]
  omega

theorem toNat_cmdRsv (w : BitVec 64) : (cmdRsv w).toNat = w.toNat / 2 ^ 48 % 2 ^ 8 := by
  rw [cmdRsv, BitVec.extractLsb'_toNat, Nat.shiftRight_eq_div_pow]

theorem cmdRsv_eq_zero_iff (w : BitVec 64) : cmdRsv w = 0#8 ↔ w.toNat / 2 ^ 48 % 2 ^ 8 = 0 := by
  rw [← toNat_cmdRsv, ← BitVec.toNat_inj, BitVec.toNat_ofNat]

theorem legalCmd_of_rsv_zero {w : BitVec 64} (h : cmdRsv w = 0#8) (i : Instr) : legalCmd w i = .ok i := if_pos h

theorem legalCmd_of_rsv_ne_zero {w : BitVec 64} (h : cmdRsv w ≠ 0#8) (i : Instr) :
    legalCmd w i = .error .reservedBits := if_neg h

@[simp] theorem legalCmd_mkCmd (op idx : BitVec 4) (a16 : Word) (v32 : DWord) (i : Instr) :
    legalCmd (mkCmd op idx a16 v32) i = .ok i := legalCmd_of_rsv_zero (cmdRsv_mkCmd ..) i

/-- The five illegal opcodes (R99). -/
def Instr.isIllegal : Instr → Bool
  | .illegalOp0 _ | .illegalOpC _ | .illegalOpD _ | .illegalOpE _ | .illegalOpF _ => true
  | _ => false

/-- A word with a legal opcode is a legal command, up to its `rsv` bits (R93). -/
theorem decodeCmd_of_legal_opcode {w : BitVec 64} (h1 : 1 ≤ (cmdOp w).toNat) (h11 : (cmdOp w).toNat ≤ 11) :
    ∃ i : Instr, decodeCmd w = legalCmd w i ∧ (encode i).isCmd = true ∧ i.isIllegal = false := by
  unfold decodeCmd
  interval_cases (cmdOp w).toNat
  all_goals exact ⟨_, rfl, rfl, rfl⟩

/-- A word with an illegal opcode is an illegal operation, whatever its `rsv` bits (R99, log 12). -/
theorem decodeCmd_of_illegal_opcode {w : BitVec 64} (h : (cmdOp w).toNat = 0 ∨ 12 ≤ (cmdOp w).toNat) :
    ∃ i : Instr, decodeCmd w = .ok i ∧ (encode i).isCmd = true ∧ i.isIllegal = true := by
  have h16 : (cmdOp w).toNat < 16 := (cmdOp w).isLt
  unfold decodeCmd
  rcases h with h0 | h12
  · rw [h0]
    exact ⟨_, rfl, rfl, rfl⟩
  · interval_cases (cmdOp w).toNat
    all_goals exact ⟨_, rfl, rfl, rfl⟩

/-- An operation that a CMD word decodes to is one that a CMD word encodes. -/
theorem isCmd_encode_of_decode_cmd {w : BitVec 64} {i : Instr} (h : decode (.cmd w) = .ok i) :
    (encode i).isCmd = true := by
  replace h : decodeCmd w = .ok i := h
  by_cases hop : 1 ≤ (cmdOp w).toNat ∧ (cmdOp w).toNat ≤ 11
  · obtain ⟨j, hd, hj, _⟩ := decodeCmd_of_legal_opcode hop.1 hop.2
    rw [hd] at h
    by_cases hr : cmdRsv w = 0#8
    · rw [legalCmd_of_rsv_zero hr] at h
      cases h
      exact hj
    · rw [legalCmd_of_rsv_ne_zero hr] at h
      cases h
  · obtain ⟨j, hd, hj, _⟩ := decodeCmd_of_illegal_opcode (w := w) (by omega)
    rw [hd] at h
    cases h
    exact hj

/-- Every operand of a host command fills its CMD field. -/
theorem wellFormed_of_isCmd_encode {i : Instr} (h : (encode i).isCmd = true) : i.wellFormed = true := by
  cases i with
  | encode | decode | bcc | reqW | reqD | reqF => cases h
  | _ => rfl

/-- The word of a host command or of an illegal opcode decodes to it (R92, R93, R99). -/
theorem decode_encode_of_isCmd {i : Instr} (h : (encode i).isCmd = true) : decode (encode i) = .ok i := by
  cases i with
  | configure | send | receive | setparamW | setparamD | setparamF | setSetpoint | setCtl | clrCtl | getActual
  | chkStatus => simp [encode, decode, decodeCmd]
  | illegalOp0 | illegalOpC | illegalOpD | illegalOpE | illegalOpF => simp [encode, decode, decodeCmd]
  | _ => cases h

/-- The operations a CMD word decodes to are those a CMD word encodes. -/
theorem exists_decode_cmd_iff {i : Instr} : (∃ w, decode (.cmd w) = .ok i) ↔ (encode i).isCmd = true := by
  refine ⟨fun ⟨w, h⟩ => isCmd_encode_of_decode_cmd h, fun h => ?_⟩
  have hd := decode_encode_of_isCmd h
  cases he : encode i with
  | cmd w => exact ⟨w, he ▸ hd⟩
  | frame bytes sel => simp [he, PortWord.isCmd] at h
  | pkw words idx sel => simp [he, PortWord.isCmd] at h

/-! ## FRAME words -/

/-- ADR bits 7:5 are zero exactly for a 5-bit address (R83). -/
theorem topBits_eq_zero_iff (a : Byte) : a.extractLsb' 5 3 = 0#3 ↔ a.toNat < 32 := by
  have ha := a.isLt
  rw [← BitVec.toNat_inj, BitVec.extractLsb'_toNat, BitVec.toNat_ofNat, Nat.shiftRight_eq_div_pow]
  omega

theorem encodePattern_encodeRowFrame {a : Byte} (ha : a.toNat < 32) (k : Pkw) (z : Pzd) :
    encodePattern (encodeRowFrame a k z) = true :=
  beq_iff_eq.mpr ((topBits_eq_zero_iff a).mpr ha)

/-- The operands read back from an `ENCODE` row's frame, word by word (R80). -/
theorem encodeOperands_encodeRowFrame (a : Byte) (k : Pkw) (z : Pzd) :
    encodeOperands (encodeRowFrame a k z) = .encode a k z := by
  simp [encodeOperands, encodeRowFrame, encodeRowBody, wireBytes, frameWord]

theorem decodeFrameWord_encode {bytes : List Byte} (hl : bytes.length = 16) (hp : encodePattern bytes = true) :
    decodeFrameWord bytes 1#2 = .ok (encodeOperands bytes) := by
  simp [decodeFrameWord, hl, hp]

theorem decodeFrameWord_decode {bytes : List Byte} (hl : bytes.length = 16) :
    decodeFrameWord bytes 2#2 = .ok (.decode bytes) := by
  simp [decodeFrameWord, hl]

theorem decodeFrameWord_bcc {bytes : List Byte} (hl : bytes.length = 16) :
    decodeFrameWord bytes 3#2 = .ok (.bcc bytes 15) := by
  simp [decodeFrameWord, hl]

theorem encodeOperands_wellFormed {bytes : List Byte} (h : encodePattern bytes = true) :
    (encodeOperands bytes).wellFormed = true := by
  simp only [encodePattern, Bool.and_eq_true, beq_iff_eq] at h
  exact decide_eq_true ((topBits_eq_zero_iff _).mp h.2)

theorem decodeFrameWord_wellFormed {bytes : List Byte} {sel : BitVec 2} {i : Instr}
    (h : decodeFrameWord bytes sel = .ok i) : i.wellFormed = true := by
  unfold decodeFrameWord at h
  split at h
  · rename_i hl
    have decodeOk : (Instr.decode bytes).wellFormed = true := beq_iff_eq.mpr hl
    have bccOk : (Instr.bcc bytes 15).wellFormed = true := by simp [Instr.wellFormed, hl]
    split at h
    · split at h
      · cases h; exact encodeOperands_wellFormed ‹_›
      · split at h
        · cases h; exact decodeOk
        · cases h; exact bccOk
    · split at h
      · cases h; exact encodeOperands_wellFormed ‹_›
      · cases h
    · cases h; exact decodeOk
    · cases h; exact bccOk
  · cases h

/-! ## PKW words -/

section Pkw

variable (idx : BitVec 4) {pke : Word} (ind vhi vlo : Word)

theorem decodePkw_reqW (h : reqWPattern pke = true) :
    decodePkw ⟨pke, ind, vhi, vlo⟩ (idx.setWidth 16) 0#16 = .ok (.reqW idx (pnuField pke) vlo) := by
  have hz : pke ≠ 0#16 := fun h0 => absurd (h0 ▸ h) (by decide)
  rw [decodePkw, if_pos (index_small idx)]
  simp [hz, h]

theorem decodePkw_reqD (h : reqDPattern pke = true) :
    decodePkw ⟨pke, ind, vhi, vlo⟩ (idx.setWidth 16) 0#16 = .ok (.reqD idx (pnuField pke) (vhi ++ vlo)) := by
  have hz : pke ≠ 0#16 := fun h0 => absurd (h0 ▸ h) (by decide)
  have hn : reqWPattern pke = false := by
    rw [reqDPattern, beq_iff_eq] at h
    rw [reqWPattern, h]
    rfl
  rw [decodePkw, if_pos (index_small idx)]
  simp [hz, hn, h]

theorem decodePkw_reqF (h : reqDPattern pke = true) :
    decodePkw ⟨pke, ind, vhi, vlo⟩ (idx.setWidth 16) 2#16 = .ok (.reqF idx (pnuField pke) (vhi ++ vlo)) := by
  rw [decodePkw, if_pos (index_small idx)]
  simp [h]

theorem decodePkw_response (w : Pkw) : decodePkw w (idx.setWidth 16) 1#16 = .ok (resolveRow idx w) := by
  rw [decodePkw, if_pos (index_small idx)]
  simp

end Pkw

section Request

variable {param : Word} (h : param &&& abovePnu = 0#16)
include h

theorem reqWPattern_request : reqWPattern (0x2#4 ++ param.extractLsb' 0 12) = true := by
  rw [reqWPattern, request_top _ h]
  rfl

theorem reqDPattern_request : reqDPattern (0x3#4 ++ param.extractLsb' 0 12) = true := by
  rw [reqDPattern, request_top _ h]
  rfl

variable (idx : BitVec 4)

theorem decode_encode_reqW (w : Word) : decode (encode (.reqW idx param w)) = .ok (.reqW idx param w) := by
  refine (decodePkw_reqW idx _ _ _ (reqWPattern_request h)).trans ?_
  rw [request_pnu _ h]

theorem decode_encode_reqD (v : DWord) : decode (encode (.reqD idx param v)) = .ok (.reqD idx param v) := by
  refine (decodePkw_reqD idx _ _ _ (reqDPattern_request h)).trans ?_
  rw [request_pnu _ h, halves_append]

theorem decode_encode_reqF (f : DWord) : decode (encode (.reqF idx param f)) = .ok (.reqF idx param f) := by
  refine (decodePkw_reqF idx _ _ _ (reqDPattern_request h)).trans ?_
  rw [request_pnu _ h, halves_append]

end Request

/-- A response decodes to the row of its ack nibble (R87). -/
theorem decode_responseWord (ak idx : BitVec 4) (low : BitVec 12) (vhi vlo : Word) :
    decode (responseWord ak idx low vhi vlo) = .ok (resolveRow idx ⟨ak ++ low, 0#16, vhi, vlo⟩) :=
  decodePkw_response idx _

theorem pnuField_and_abovePnu (pke : Word) : pnuField pke &&& abovePnu = 0#16 := by
  simp [pnuField, abovePnu, BitVec.and_assoc]

theorem resolveRow_wellFormed (idx : BitVec 4) (w : Pkw) : (resolveRow idx w).wellFormed = true := by
  unfold resolveRow
  split <;> rfl

theorem decodePkw_wellFormed {w : Pkw} {idx sel : Word} {i : Instr} (h : decodePkw w idx sel = .ok i) :
    i.wellFormed = true := by
  have request : (pnuField w.pke &&& abovePnu == 0#16) = true := beq_iff_eq.mpr (pnuField_and_abovePnu w.pke)
  unfold decodePkw at h
  dsimp only at h
  split at h
  · split at h
    · split at h
      · cases h; rfl
      · split at h
        · cases h; exact request
        · split at h
          · cases h; exact request
          · cases h; exact resolveRow_wellFormed _ w
    · cases h; exact resolveRow_wellFormed _ w
    · split at h
      · cases h; exact request
      · cases h
    · cases h
  · cases h

/-! ## Decoding and encoding -/

/-- Settles O1, by the encoding: a CMD word, a frame, a request, or a response whose ack nibble picks the row. -/
theorem decodeOfEncodeIsIdentity : Obligations.DecodeOfEncodeIsIdentity := by
  intro i hw
  cases i with
  | encode a k z =>
    refine (decodeFrameWord_encode rfl (encodePattern_encodeRowFrame (of_decide_eq_true hw) k z)).trans ?_
    rw [encodeOperands_encodeRowFrame]
  | decode bytes => exact decodeFrameWord_decode (beq_iff_eq.mp hw)
  | bcc buf len =>
    simp only [Instr.wellFormed, Bool.and_eq_true, beq_iff_eq] at hw
    obtain ⟨hbuf, rfl⟩ := hw
    exact decodeFrameWord_bcc hbuf
  | noTask => rfl
  | reqW idx param w => exact decode_encode_reqW (beq_iff_eq.mp hw) idx w
  | reqD idx param v => exact decode_encode_reqD (beq_iff_eq.mp hw) idx v
  | reqF idx param f => exact decode_encode_reqF (beq_iff_eq.mp hw) idx f
  | resolveNoResp | resolveOther1 | resolveOther2 | resolveOther3 | resolveOther4 | resolveOther5 | resolveOther6
  | resolveCantExecute | resolveNoRights | resolveOther9 | resolveOtherA | resolveOtherB | resolveOtherC
  | resolveOtherD | resolveOtherE | resolveOtherF =>
    exact (decode_responseWord ..).trans (by simp [resolveRow])
  | _ => exact decode_encode_of_isCmd rfl

/-- Settles O2, by the encoding of the word. -/
theorem decodedInstructionsAreWellFormed : Obligations.DecodedInstructionsAreWellFormed := by
  intro w i h
  cases w with
  | cmd w => exact wellFormed_of_isCmd_encode (isCmd_encode_of_decode_cmd h)
  | frame bytes sel => exact decodeFrameWord_wellFormed h
  | pkw words idx sel => exact decodePkw_wellFormed h

/-- Settles O3: the decoder runs on each word. -/
theorem specProgramWordsDecode : Obligations.SpecProgramWordsDecode := by
  unfold Obligations.SpecProgramWordsDecode
  exact ⟨rfl, rfl, rfl, rfl, rfl, rfl, rfl, rfl, rfl, rfl, rfl, rfl, rfl, by decide⟩

end Sys2Proof

namespace Sys2Proof.Machine

/-! ## Refusals -/

theorem exec_of_isIllegal {i : Instr} (hi : i.isIllegal = true) (s : State) : exec i s = .refused .illegalOp := by
  cases i with
  | illegalOp0 | illegalOpC | illegalOpD | illegalOpE | illegalOpF => rfl
  | _ => cases hi

theorem sendLoop_ne_refused (s : State) (r : Refusal) : sendLoop s ≠ .refused r := by
  unfold sendLoop done
  split
  · nofun
  · split <;> nofun

theorem paramLoop_ne_refused (idx : BitVec 4) (s : State) (r : Refusal) : paramLoop idx s ≠ .refused r := by
  unfold paramLoop done
  split
  · nofun
  · split
    · split <;> nofun
    · nofun

theorem execSend_refused {s : State} {r : Refusal} (h : exec .send s = .refused r) : r = .phase := by
  replace h : execSend s = .refused r := h
  unfold execSend at h
  split at h
  · exact absurd h (sendLoop_ne_refused s r)
  · cases h; rfl

theorem execReceive_refused {s : State} {r : Refusal} (h : exec .receive s = .refused r) : r = .phase := by
  replace h : execReceive s = .refused r := h
  unfold execReceive done at h
  split at h
  · split at h <;> cases h
  · cases h; rfl

theorem setparam_refused {idx : BitVec 4} {request : Slave → Slave} {s : State} {r : Refusal}
    (h : setparam idx request s = .refused r) : r = .phase := by
  unfold setparam done at h
  split at h
  · split at h
    · exact absurd h (paramLoop_ne_refused idx _ r)
    · cases h; rfl
  · cases h

theorem execConfigure_refused {n : BitVec 4} {margin : Word} {baud : DWord} {s : State} {r : Refusal}
    (h : exec (.configure n margin baud) s = .refused r) : r = .reconfigure ∨ r = .baudZero := by
  replace h : execConfigure n margin baud s = .refused r := h
  unfold execConfigure done at h
  split at h
  · cases h; exact .inl rfl
  · split at h
    · cases h; exact .inr rfl
    · repeat' split at h
      all_goals cases h

/-- The refusals of an operation other than the illegal ones (R226). -/
theorem exec_refused {i : Instr} {s : State} {r : Refusal} (hi : i.isIllegal = false)
    (h : exec i s = .refused r) : r = .reconfigure ∨ r = .baudZero ∨ r = .phase := by
  cases i with
  | configure n margin baud => exact (execConfigure_refused h).imp_right .inl
  | send => exact .inr (.inr (execSend_refused h))
  | receive => exact .inr (.inr (execReceive_refused h))
  | setparamW | setparamD | setparamF => exact .inr (.inr (setparam_refused h))
  | illegalOp0 | illegalOpC | illegalOpD | illegalOpE | illegalOpF => cases hi
  | _ => cases h

/-- Settles O47: each of the five is one of the illegal operations. -/
theorem illegalOpcodesAreRefused : Obligations.IllegalOpcodesAreRefused := by
  intro s rest
  exact ⟨exec_of_isIllegal rfl s, exec_of_isIllegal rfl s, exec_of_isIllegal rfl s, exec_of_isIllegal rfl s,
    exec_of_isIllegal rfl s⟩

/-- Settles O48, by opcode and `rsv`: the word decodes to an illegal operation, not at all, or to an operation that is
refused for other reasons only. -/
theorem illegalCommandWordsAreRefused : Obligations.IllegalCommandWordsAreRefused := by
  intro s w e rest hl hq hp he
  dsimp only
  rw [← toNat_cmdOp, Ne, ← cmdRsv_eq_zero_iff]
  have runs {i : Instr} (hd : decodeCmd w = .ok i) : step s = exec i (s.accept e rest) :=
    step_of_fetch_run hl hq (fetch_run hp (he ▸ hd))
  refine ⟨fun hop => ?_, fun h1 h11 hr => ?_, fun h1 h11 hr => ?_⟩
  · obtain ⟨i, hd, _, hi⟩ := decodeCmd_of_illegal_opcode hop
    exact (runs hd).trans (exec_of_isIllegal hi _)
  · obtain ⟨i, hd, _, _⟩ := decodeCmd_of_legal_opcode h1 h11
    rw [legalCmd_of_rsv_ne_zero hr] at hd
    have hbad : decode e.word = .error .reservedBits := by rw [he]; exact hd
    exact step_of_fetch_bad hl hq (fetch_bad hp hbad)
  · obtain ⟨i, hd, _, hi⟩ := decodeCmd_of_legal_opcode h1 h11
    rw [legalCmd_of_rsv_zero hr] at hd
    rw [runs hd]
    exact ⟨fun h => by simpa using exec_refused hi h, fun h => by simpa using exec_refused hi h⟩

/-! ## Responses -/

/-- Settles O21: the operation only leaves its result. -/
theorem noTaskReturnsFourZeroWords : Obligations.NoTaskReturnsFourZeroWords := fun _ => rfl

/-- From `s` to `t` a command completes and delivers one response, with the value `v` (R94). -/
def Completes (s t : State) (v : Word) : Prop :=
  t.seq = .idle ∧ ∃ c, t.responses = s.responses ++ [⟨c, v⟩]

/-- From `s` to `t` a command delivers nothing and the block stays inside it (log 1). -/
def GoesOn (s t : State) : Prop := t.seq ≠ .idle ∧ t.responses = s.responses

/-- A response delivered between commands, by a transition that has delivered none before. -/
theorem completes_respond {s u : State} (hq : u.seq = .idle) (hr : u.responses = s.responses) (c : Code) (v : Word) :
    Completes s (u.respond c v) v :=
  ⟨hq, c, by rw [State.respond_responses, hr]⟩

@[simp] theorem State.scanStart_responses (s : State) : s.selected.transmit.responses = s.responses := by
  rw [State.transmit_eq]; rfl

@[simp] theorem State.receive_responses (s : State) : s.receive.responses = s.responses := by
  rw [State.receive_eq]

@[simp] theorem State.receive_seq (s : State) : s.receive.seq = s.seq := by
  rw [State.receive_eq]

@[simp] theorem State.scan_responses (s : State) : s.scan.responses = s.responses := by
  simp [State.scan]

theorem State.updateInRange_responses (s : State) (idx : BitVec 4) (f : Slave → Slave) :
    (s.updateInRange idx f).responses = s.responses := by
  rw [← State.updateInRange_frame]

theorem State.updateInRange_seq (s : State) (idx : BitVec 4) (f : Slave → Slave) :
    (s.updateInRange idx f).seq = s.seq := by
  rw [← State.updateInRange_frame]

theorem sendLoop_answers {s t : State} (h : sendLoop s = .next t) : Completes s t 0#16 ∨ GoesOn s t := by
  rcases sendLoop_next h with ⟨_, rfl⟩ | ⟨_, _, rfl⟩
  · exact .inr ⟨nofun, rfl⟩
  · exact .inl (completes_respond (u := s.selected.transmit.toSeq .idle) rfl s.scanStart_responses _ _)

theorem paramLoop_answers {idx : BitVec 4} {s t : State} (h : paramLoop idx s = .next t) :
    Completes s t 0#16 ∨ GoesOn s t := by
  rcases paramLoop_next h with ⟨_, rfl⟩ | ⟨_, _, _, rfl⟩ | ⟨_, _, _, rfl⟩
  · exact .inr ⟨nofun, rfl⟩
  · exact .inr ⟨nofun, s.scan_responses⟩
  · exact .inl (completes_respond (u := s.scan.toSeq .idle) rfl s.scan_responses _ _)

theorem setparam_answers {idx : BitVec 4} {request : Slave → Slave} {s t : State} (hq : s.seq = .idle)
    (h : setparam idx request s = .next t) : Completes s t 0#16 ∨ GoesOn s t := by
  rcases setparam_next h with ⟨_, rfl⟩ | ⟨_, _, hloop⟩
  · exact .inl (completes_respond (u := s.afterDraw) hq rfl _ _)
  · exact paramLoop_answers (s := s.updateSlave idx.toNat request) hloop

/-- A bus command answers the value 0 once it completes. -/
theorem exec_bus_answers {i : Instr} {s t : State} (hq : s.seq = .idle) (hb : i.isBus = true)
    (h : exec i s = .next t) : Completes s t 0#16 ∨ GoesOn s t := by
  rcases Instr.isBus_cases hb s.cfg with ⟨n, margin, baud, rfl⟩ | rfl | rfl | ⟨idx, pke, vhi, vlo, hs⟩
  · obtain ⟨_, _, ⟨e, rfl⟩ | ⟨_, _, _, rfl⟩⟩ := execConfigure_next h
    · exact .inl (completes_respond hq rfl _ _)
    · exact .inl (completes_respond (u := s.configure n margin baud) hq rfl _ _)
  · exact sendLoop_answers (execSend_next h).2
  · obtain ⟨_, _, rfl⟩ := execReceive_next h
    exact .inl (completes_respond (s.receive_seq.trans hq) s.receive_responses _ _)
  · rw [exec_isSetparam hs] at h
    exact setparam_answers hq h

/-- A setter answers the value 0 in range and out of it (R150 to R152, R155). -/
theorem completes_updateInRange {s : State} (hq : s.seq = .idle) (idx : BitVec 4) (f : Slave → Slave) (c : Code)
    (v : Word) : Completes s ((s.updateInRange idx f).respond c v) v :=
  completes_respond ((s.updateInRange_seq idx f).trans hq) (s.updateInRange_responses idx f) _ _

/-- A getter answers its value or a draw (R153 to R155). -/
theorem completes_answer {s : State} (hq : s.seq = .idle) (idx : BitVec 4) (value : Word) :
    ∃ v, Completes s (s.answer idx value) v := by
  unfold State.answer
  split
  · exact ⟨_, completes_respond hq rfl _ _⟩
  · exact ⟨_, completes_respond (u := s.afterDraw) hq rfl _ _⟩

/-- A process data command completes at once; all but the getters answer the value 0. -/
theorem exec_data_answers {i : Instr} {s t : State} (hq : s.seq = .idle) (hc : (encode i).isCmd = true)
    (hb : i.isBus = false) (h : exec i s = .next t) :
    ∃ v, Completes s t v ∧ ((∀ idx m, i ≠ .getActual idx ∧ i ≠ .chkStatus idx m) → v = 0#16) := by
  cases i with
  | setSetpoint | setCtl | clrCtl => cases h; exact ⟨_, completes_updateInRange hq _ _ _ _, fun _ => rfl⟩
  | getActual idx =>
    cases h
    obtain ⟨v, hv⟩ := completes_answer hq idx _
    exact ⟨v, hv, fun hn => absurd rfl (hn idx 0#16).1⟩
  | chkStatus idx mask =>
    cases h
    obtain ⟨v, hv⟩ := completes_answer hq idx _
    exact ⟨v, hv, fun hn => absurd rfl (hn idx mask).2⟩
  | illegalOp0 | illegalOpC | illegalOpD | illegalOpE | illegalOpF => cases h
  | configure | send | receive | setparamW | setparamD | setparamF => cases hb
  | _ => cases hc

/-- A micro-operation delivers no response and leaves the sequencer where it is (log 15). -/
theorem exec_micro_frame {i : Instr} {s t : State} (hc : (encode i).isCmd = false) (h : exec i s = .next t) :
    t.responses = s.responses ∧ t.seq = s.seq := by
  cases i with
  | encode | decode | bcc | noTask => cases h; exact ⟨rfl, rfl⟩
  | reqW | reqD | reqF | resolveNoResp | resolveOther1 | resolveOther2 | resolveOther3 | resolveOther4
  | resolveOther5 | resolveOther6 | resolveCantExecute | resolveNoRights | resolveOther9 | resolveOtherA
  | resolveOtherB | resolveOtherC | resolveOtherD | resolveOtherE | resolveOtherF =>
    cases h; exact ⟨s.updateInRange_responses _ _, s.updateInRange_seq _ _⟩
  | _ => cases hc

/-- Settles O55: a bus command, a process data command, or a micro-operation. -/
theorem oneResponsePerCommand : Obligations.OneResponsePerCommand := by
  intro s t w i hq h
  refine ⟨fun hd => ?_, fun hn => ?_⟩
  · have hc := isCmd_encode_of_decode_cmd hd
    cases hb : i.isBus with
    | true =>
      rcases exec_bus_answers hq hb h with ⟨hidle, c, hr⟩ | hon
      · exact .inl ⟨hidle, c, _, hr, fun _ => rfl⟩
      · exact .inr hon
    | false =>
      obtain ⟨v, ⟨hidle, c, hr⟩, hv⟩ := exec_data_answers hq hc hb h
      exact .inl ⟨hidle, c, v, hr, hv⟩
  · have hc : (encode i).isCmd = false := by
      rw [← Bool.not_eq_true, ← exists_decode_cmd_iff]
      exact fun ⟨w', hd⟩ => hn w' hd
    obtain ⟨hr, hseq⟩ := exec_micro_frame hc h
    exact ⟨hr, hseq.trans hq⟩

end Sys2Proof.Machine
end

section
/-! PROOFS. The family 40_codec.md: `BCC` is an XOR of bytes in any order (O24); what `ENCODE` leaves in `TXBUF` (O25);
when `DECODE` fails and what it extracts (O26, O27); the round trip (O28); and which changes of a frame the BCC
detects (O29). -/

namespace Sys2Proof.Machine

/-! ## Bytes of a sequence -/

theorem take_eq_map_getD {l : List Byte} {n : Nat} (h : n ≤ l.length) :
    l.take n = (List.range n).map (l.getD · 0#8) := by
  apply List.ext_getElem
  · simpa using h
  · intro k hk _
    have hkl : k < l.length := by rw [List.length_take] at hk; omega
    simp [hkl]

/-- A sequence that differs from another at one offset only is that one with the byte set. -/
theorem eq_set_of_getD_eq {f g : List Byte} {j : Nat} (hl : g.length = f.length)
    (h : ∀ o, o ≠ j → g.getD o 0#8 = f.getD o 0#8) : g = f.set j (g.getD j 0#8) := by
  apply List.ext_getElem
  · simpa using hl
  · intro o ho ho'
    rw [List.length_set] at ho'
    rw [List.getElem_set]
    split
    · rename_i hjo
      subst hjo
      exact List.getElem_eq_getD 0#8
    · rename_i hjo
      have := h o (Ne.symm hjo)
      rwa [← List.getElem_eq_getD, ← List.getElem_eq_getD] at this

/-! ## XOR of a sequence -/

theorem xorOf_take_eq_foldl_range {l : List Byte} {n : Nat} (h : n ≤ l.length) :
    xorOf (l.take n) = (List.range n).foldl (fun x k => x ^^^ l.getD k 0#8) 0x00#8 := by
  rw [take_eq_map_getD h, xorOf, List.foldl_map]

theorem xorOf_perm {l m : List Byte} (h : l.Perm m) : xorOf l = xorOf m :=
  h.foldl_eq 0x00#8

/-- Setting one byte changes the XOR by the difference. -/
theorem xorOf_set {l : List Byte} {j : Nat} (h : j < l.length) (b : Byte) :
    xorOf (l.set j b) = xorOf l ^^^ (b ^^^ l.getD j 0#8) := by
  induction l generalizing j with
  | nil => cases h
  | cons a l ih =>
    cases j with
    | zero =>
      rw [List.set_cons_zero, xorOf_cons, xorOf_cons, List.getD_cons_zero]
      calc b ^^^ xorOf l = (a ^^^ a) ^^^ (b ^^^ xorOf l) := by rw [BitVec.xor_self, BitVec.zero_xor]
        _ = a ^^^ xorOf l ^^^ (b ^^^ a) := by ac_rfl
    | succ j =>
      rw [List.set_cons_succ, xorOf_cons, xorOf_cons, List.getD_cons_succ, ih (Nat.lt_of_succ_lt_succ h),
        BitVec.xor_assoc]

/-- Setting two bytes changes the XOR by both differences. -/
theorem xorOf_eq_of_two_changes {f g : List Byte} {j m : Nat} (hl : g.length = f.length) (hj : j < f.length)
    (hm : m < f.length) (hmj : m ≠ j) (h : ∀ o, o ≠ j → o ≠ m → g.getD o 0#8 = f.getD o 0#8) :
    xorOf g = xorOf f ^^^ (g.getD m 0#8 ^^^ f.getD m 0#8) ^^^ (g.getD j 0#8 ^^^ f.getD j 0#8) := by
  have hset : g = (f.set m (g.getD m 0#8)).set j (g.getD j 0#8) := by
    refine eq_set_of_getD_eq (by simpa using hl) fun o hoj => ?_
    by_cases hom : o = m
    · simp [hom, hm]
    · simpa [Ne.symm hom] using h o hoj hom
  have hother : (f.set m (g.getD m 0#8)).getD j 0#8 = f.getD j 0#8 := by simp [hmj]
  conv_lhs => rw [hset, xorOf_set (by simpa using hj), xorOf_set hm, hother]

/-- A 16-byte frame is its first 15 bytes and its BCC byte. -/
theorem frame_eq_append {f : List Byte} (h : f.length = 16) : f = f.take 15 ++ [f.getD 15 0#8] := by
  rw [← List.getElem_eq_getD (h := by omega), List.take_append_getElem, List.take_of_length_le (by omega)]

/-- The last byte is the BCC of the others exactly if the whole frame has XOR 0 (R110). -/
theorem bcc_byte_eq_iff {f : List Byte} (h : f.length = 16) :
    f.getD 15 0#8 = xorOf (f.take 15) ↔ xorOf f = 0#8 := by
  have hx : xorOf f = xorOf (f.take 15) ^^^ f.getD 15 0#8 := by
    conv_lhs => rw [frame_eq_append h, xorOf_append, xorOf_cons]
    exact congrArg _ BitVec.xor_zero
  rw [hx, BitVec.xor_eq_zero_iff, eq_comm]

/-! ## The three operations -/

theorem exec_bcc (buf : List Byte) (len : Nat) (s : State) :
    exec (.bcc buf len) s = .next { s with mres := .byte (bcc buf len) } := rfl

theorem exec_decode (f : List Byte) (s : State) :
    exec (.decode f) s = .next { s with mres := .decoded (decodeBytes s.cfg f) } := rfl

theorem exec_encode (a : Byte) (k : Pkw) (z : Pzd) (s : State) :
    exec (.encode a k z) s = .next
      { s with txbuf := encodeInto s.cfg.lge a k z s.txbuf, mres := .frame (telegram s.cfg.lge a k z) } := by
  rw [← encodeBytes_eq_telegram]
  rfl

theorem decodeBytes_of_frameOk {c : Config} {f : List Byte} (h : FrameOk c f) :
    decodeBytes c f = .ok (extractTelegram f) := by
  classical
  rw [decodeBytes_eq, if_pos h]

theorem decodeBytes_of_not_frameOk {c : Config} {f : List Byte} (h : ¬ FrameOk c f) :
    decodeBytes c f = .malformed := by
  classical
  rw [decodeBytes_eq, if_neg h]

theorem decodeBytes_eq_malformed_iff {c : Config} {f : List Byte} : decodeBytes c f = .malformed ↔ ¬ FrameOk c f := by
  refine ⟨fun h hf => ?_, decodeBytes_of_not_frameOk⟩
  rw [decodeBytes_of_frameOk hf] at h
  cases h

theorem decodeBytes_eq_ok_iff {c : Config} {f : List Byte} {d : Telegram} :
    decodeBytes c f = .ok d ↔ FrameOk c f ∧ extractTelegram f = d := by
  by_cases hf : FrameOk c f
  · simp [decodeBytes_of_frameOk hf, hf]
  · simp [decodeBytes_of_not_frameOk hf, hf]

/-! ## The statements about one operation -/

/-- Settles O24: within the buffer `BCC` is the XOR of a prefix. -/
theorem bccIsTheXorOfTheRange : Obligations.BccIsTheXorOfTheRange := by
  intro s buf len
  refine ⟨bcc buf len, exec_bcc buf len s, fun h => ?_, ?_, fun buf' hl hp => ?_, fun hl hlen hb => ?_⟩
  · rw [bcc_eq_xorOf h, xorOf_take_eq_foldl_range h]
  · rintro rfl
    exact bcc_eq_xorOf (Nat.zero_le _)
  · have hle : len ≤ buf.length := by
      have := hp.length_eq
      rw [List.length_take] at this
      omega
    rw [exec_bcc, bcc_eq_xorOf hl.ge, bcc_eq_xorOf hle, List.take_of_length_le hl.le, xorOf_perm hp]
  · subst hlen
    rw [bcc_eq_xorOf (by omega)] at hb
    exact (bcc_byte_eq_iff hl).mp hb

/-- Settles O25, by reading `TXBUF` below offset 16, where it is the telegram, and beyond, where it is 0. -/
theorem encodeWritesTheTelegram : Obligations.EncodeWritesTheTelegram := by
  intro s a k z hi
  refine ⟨_, exec_encode a k z s, ?_, rfl, fun o ho => read_encodeInto hi.txbufWf ho, fun o ho => ?_⟩
  · rfl
  · rw [Memory.read_beyond (wf_encodeInto hi.txbufWf) ho, Memory.read_beyond hi.txbufWf ho]

/-- Settles O26: the four causes are the negation of `FrameOk`. -/
theorem decodeFailsExactlyForTheListedCauses : Obligations.DecodeFailsExactlyForTheListedCauses := by
  intro s f
  refine ⟨_, exec_decode f s, ?_⟩
  rw [decodeBytes_eq_malformed_iff, FrameOk]
  simp only [not_and_or, Classical.not_imp, ne_eq]

/-- Settles O27: the words are `extractTelegram`'s own. -/
theorem decodeExtractsTheFields : Obligations.DecodeExtractsTheFields := by
  intro s f hf
  rw [exec_decode, decodeBytes_of_frameOk hf]
  rfl

/-! ## A decoded frame encoded again -/

@[simp] theorem hi8_append (h l : Byte) : hi8 (h ++ l) = h := BitVec.extractLsb'_append_eq_left

@[simp] theorem lo8_append (h l : Byte) : lo8 (h ++ l) = l := BitVec.extractLsb'_append_eq_right

/-- Masking keeps an address exactly if its bits 7:5 are 0 (R83). -/
theorem maskAddr_eq_self_iff (a : Byte) : maskAddr a = a ↔ a.extractLsb' 5 3 = 0#3 := by
  revert a; decide

/-- The body that `ENCODE` makes of extracted fields: the frame's own bytes, the length byte replaced and the address
masked. -/
theorem telegramBody_extractTelegram (lge : Byte) (f : List Byte) :
    telegramBody lge (extractTelegram f).address (extractTelegram f).pkw (extractTelegram f).pzd =
      0x02#8 :: lge :: maskAddr (f.getD 2 0#8) ::
        [3, 4, 5, 6, 7, 8, 9, 10, 11, 12, 13, 14].map (f.getD · 0#8) := by
  simp [telegramBody, extractTelegram, wordAt, be16, maskAddr, BitVec.and_assoc]

theorem telegramBody_extractTelegram_eq_iff {c : Config} {f : List Byte} (h : FrameOk c f) (lge : Byte) :
    telegramBody lge (extractTelegram f).address (extractTelegram f).pkw (extractTelegram f).pzd = f.take 15 ↔
      f.getD 1 0#8 = lge ∧ (f.getD 2 0#8).extractLsb' 5 3 = 0#3 := by
  obtain ⟨hlen, hstx, _, _⟩ := h
  have htake : f.take 15 = 0x02#8 :: f.getD 1 0#8 :: f.getD 2 0#8 ::
      [3, 4, 5, 6, 7, 8, 9, 10, 11, 12, 13, 14].map (f.getD · 0#8) := by
    rw [take_eq_map_getD (by omega), ← hstx]
    rfl
  rw [telegramBody_extractTelegram, htake, ← maskAddr_eq_self_iff, eq_comm (a := f.getD 1 0#8)]
  simp only [List.cons.injEq, and_true, true_and]

/-- The BCC byte of an accepted frame is the one `ENCODE` would make, so only the body is compared. -/
theorem telegram_eq_iff {c : Config} {f : List Byte} (h : FrameOk c f) (lge a : Byte) (k : Pkw) (z : Pzd) :
    telegram lge a k z = f ↔ telegramBody lge a k z = f.take 15 := by
  obtain ⟨hlen, _, _, hbcc⟩ := h
  refine ⟨fun he => he ▸ rfl, fun he => ?_⟩
  rw [telegram, he, ← hbcc, ← frame_eq_append hlen]

/-- Settles O28: `ENCODE` made a frame that passes the checks and extracts to its operands; and a frame that passes them
differs from its re-encoding at most in the length byte and the address byte. -/
theorem encodeAndDecodeAgree : Obligations.EncodeAndDecodeAgree := by
  intro s hi
  refine ⟨fun a k z t ht => ?_, fun f t d ht hd u hu => ?_⟩
  · rw [exec_encode] at ht
    cases ht
    refine ⟨_, rfl, (bytes_encodeInto hi.txbufWf).symm, ?_, fun ha => ?_⟩
    · rw [exec_decode, decodeBytes_of_frameOk (frameOk_telegram s.cfg a k z), extract_telegram]
    · exact (maskAddr_eq_self_iff a).mpr ((topBits_eq_zero_iff a).mpr ha)
  · rw [exec_decode] at ht
    cases ht
    obtain ⟨hf, rfl⟩ := decodeBytes_eq_ok_iff.mp (MicroResult.decoded.inj hd)
    rw [exec_encode] at hu
    cases hu
    rw [MicroResult.frame.injEq, telegram_eq_iff hf, telegramBody_extractTelegram_eq_iff hf]

/-! ## Changed frames -/

/-- The checks of `DECODE` with the BCC check on the whole frame. -/
theorem frameOk_iff_xorOf_eq_zero {c : Config} {f : List Byte} (h : f.length = 16) :
    FrameOk c f ↔ f.getD 0 0#8 = 0x02#8 ∧ (c.checkLge = true → f.getD 1 0#8 = c.lge) ∧ xorOf f = 0#8 := by
  rw [FrameOk, bcc_byte_eq_iff h]
  exact and_iff_right h

theorem FrameOk.xorOf_eq_zero {c : Config} {f : List Byte} (h : FrameOk c f) : xorOf f = 0#8 := by
  obtain ⟨hlen, _, _, hbcc⟩ := h
  exact (bcc_byte_eq_iff hlen).mp hbcc

/-- A single changed byte, the BCC byte included, leaves no frame that passes the checks: the XOR is no longer 0. -/
theorem not_frameOk_of_one_change {c : Config} {f g : List Byte} {j : Nat} (hf : FrameOk c f)
    (hg : g.length = f.length) (hsame : ∀ o, o ≠ j → g.getD o 0#8 = f.getD o 0#8)
    (hne : g.getD j 0#8 ≠ f.getD j 0#8) : ¬ FrameOk c g := by
  intro hok
  have hj : j < f.length := by
    by_contra hj
    rw [List.getD_eq_default _ _ (by omega), List.getD_eq_default _ _ (by omega)] at hne
    exact hne rfl
  have hx := hok.xorOf_eq_zero
  rw [eq_set_of_getD_eq hg hsame, xorOf_set hj, hf.xorOf_eq_zero, BitVec.zero_xor, BitVec.xor_eq_zero_iff] at hx
  exact hne hx

/-- Two bytes changed by the same difference leave the XOR at 0. -/
theorem xorOf_eq_zero_of_equal_changes {f g : List Byte} {j m : Nat} (hf : xorOf f = 0#8) (hg : g.length = f.length)
    (hj : j < f.length) (hm : m < f.length) (hmj : m ≠ j)
    (hsame : ∀ o, o ≠ j → o ≠ m → g.getD o 0#8 = f.getD o 0#8)
    (hdiff : g.getD j 0#8 ^^^ f.getD j 0#8 = g.getD m 0#8 ^^^ f.getD m 0#8) : xorOf g = 0#8 := by
  rw [xorOf_eq_of_two_changes hg hj hm hmj hsame, hdiff, hf, BitVec.zero_xor, BitVec.xor_self]

/-- Settles O29, by the XOR of the whole frame: one change makes it nonzero, two equal changes cancel. -/
theorem oneChangedByteIsDetected : Obligations.OneChangedByteIsDetected := by
  intro s a k z g j hg
  have hf := frameOk_telegram s.cfg a k z
  refine ⟨fun hsame hne => ?_, fun m hm hj hmj hsame hdiff hstx hlge => ?_⟩
  · rw [exec_decode, decodeBytes_of_not_frameOk (not_frameOk_of_one_change hf hg hsame hne)]
  · have hx : xorOf g = 0#8 := xorOf_eq_zero_of_equal_changes hf.xorOf_eq_zero hg hj hm hmj hsame hdiff
    have hok := (frameOk_iff_xorOf_eq_zero hg).mpr ⟨hstx, hlge, hx⟩
    exact ⟨extractTelegram g, by rw [exec_decode, decodeBytes_of_frameOk hok]⟩

end Sys2Proof.Machine
end

section
/-! PROOFS. The family 41_pkw_channel.md: what the requests record (O16, O17, O18) and `RESOLVE` answers (O20); every
transition of a Parameter Channel (O22); an unresolved request stays and is sent again (O23); the other answers to an
accepted frame (O38); and a `SETPARAM_*` records its request and scans (O43). -/

namespace Sys2Proof.Machine

/-! ## Writing one record -/

/-- An update in range writes the one record and nothing else. -/
theorem State.Inv.onlyRecord_updateInRange {s : State} (hi : s.Inv) (idx : BitVec 4) (f : Slave → Slave) :
    OnlyRecord s (s.updateInRange idx f) idx f [] where
  records k := by
    have hlen : idx.toNat < s.count → idx.toNat < s.slaves.length := fun h => Nat.lt_of_lt_of_le h hi.count_le
    simp only [State.updateInRange_slave, and_iff_left_of_imp hlen]
  length := by
    unfold State.updateInRange
    split
    · exact s.updateSlave_length _ f
    · rfl
  others := by rw [List.append_nil, State.updateInRange_frame]

/-- Two lists of records of one length with the same records are the same. -/
theorem State.slaves_eq_of_slave_eq {s t : State} (hl : t.slaves.length = s.slaves.length)
    (h : ∀ k, t.slave k = s.slave k) : t.slaves = s.slaves := by
  refine List.ext_getElem hl fun k hk hk' => ?_
  have := h k
  rwa [State.slave, State.slave, ← List.getElem_eq_getD, ← List.getElem_eq_getD] at this

/-- What a command writes to one record determines the state after it. -/
theorem OnlyRecord.unique {s t u : State} {idx : BitVec 4} {f : Slave → Slave} {responses : List Response}
    (ht : OnlyRecord s t idx f responses) (hu : OnlyRecord s u idx f responses) : t = u := by
  have hslaves : t.slaves = u.slaves :=
    State.slaves_eq_of_slave_eq (ht.length.trans hu.length.symm) fun k => (ht.records k).trans (hu.records k).symm
  rw [ht.others, hslaves, ← hu.others]

/-! ## The request micro-operations -/

/-- Settles O16: the request of `REQ_W` is an update in range. -/
theorem reqWRecordsAWordRequest : Obligations.ReqWRecordsAWordRequest := by
  intro s idx param w hi _
  exact ⟨_, rfl, hi.onlyRecord_updateInRange idx (Slave.reqW s.cfg param w)⟩

/-- Settles O17: the request of `REQ_D` is an update in range. -/
theorem reqDRecordsADoubleWordRequest : Obligations.ReqDRecordsADoubleWordRequest := by
  intro s idx param v hi _
  exact ⟨_, rfl, hi.onlyRecord_updateInRange idx (Slave.reqD s.cfg param v)⟩

theorem exec_reqF (s : State) (idx : BitVec 4) (param : Word) (f : DWord) :
    exec (.reqF idx param f) s = exec (.reqD idx param f) s := rfl

/-- Settles O18: the two halves that `REQ_D` records join to the pattern. -/
theorem reqFIsReqDOnTheBitPattern : Obligations.ReqFIsReqDOnTheBitPattern := by
  intro s idx param f
  refine ⟨exec_reqF s idx param f, fun hi hr => ?_⟩
  obtain ⟨t, ht, hrec⟩ := reqDRecordsADoubleWordRequest s idx param f hi hr
  refine ⟨t, (exec_reqF s idx param f).trans ht, ?_⟩
  rw [hrec.records, if_pos ⟨rfl, hr⟩]
  exact halves_append f

/-! ## The code of an acknowledgment -/

section Ack

variable {c : Config} {pke : Word} (vhi vlo : Word)

theorem resolveCode_noResp (h : akOf pke = c.akNoResp) : resolveCode c pke vhi vlo = rcNoResponse := by
  simp [resolveCode, ackOutcome, h, AckOutcome.resultCode]

theorem resolveCode_noRights (hc : c.Valid) (h : akOf pke = c.akNoRights) :
    resolveCode c pke vhi vlo = rcAccessDenied := by
  obtain ⟨_, _, hne, _⟩ := hc
  simp [resolveCode, ackOutcome, h, hne.symm, AckOutcome.resultCode]

theorem resolveCode_cantExecute (hc : c.Valid) (h : akOf pke = c.akCantExecute) :
    resolveCode c pke vhi vlo =
      if c.errcode vhi vlo = 0#16 then rcIllegalParam else (c.errcode vhi vlo).setWidth 32 := by
  obtain ⟨_, _, _, hne, hne', _⟩ := hc
  simp only [resolveCode, ackOutcome, h, hne.symm, hne'.symm, if_true, if_false]
  split <;> rfl

theorem resolveCode_other (h1 : akOf pke ≠ c.akNoResp) (h2 : akOf pke ≠ c.akNoRights)
    (h3 : akOf pke ≠ c.akCantExecute) : resolveCode c pke vhi vlo = rcOk := by
  simp [resolveCode, ackOutcome, h1, h2, h3, AckOutcome.resultCode]

end Ack

@[simp] theorem akOf_append (ack : BitVec 4) (low : BitVec 12) : akOf (ack ++ low) = ack := nibble_append ack low

/-! ## RESOLVE -/

/-- Each row is `RESOLVE` of a response with the row's ack nibble (R134). -/
theorem exec_resolveRow {ack : BitVec 4} {row : BitVec 4 → BitVec 12 → Word → Word → Instr}
    (h : (ack, row) ∈ resolveRows) (idx : BitVec 4) (low : BitVec 12) (vhi vlo : Word) (s : State) :
    exec (row idx low vhi vlo) s = .next (s.resolveAt idx (ack ++ low) vhi vlo) := by
  fin_cases h <;> rfl

theorem State.updateInRange_leave (s : State) (idx : BitVec 4) (f : Slave → Slave) (r : MicroResult) :
    (s.updateInRange idx f).leave r = (s.leave r).updateInRange idx f :=
  apply_ite (fun u : State => u.leave r) _ _ _

/-- `RESOLVE` leaves its code and clears the request of the one record. -/
theorem State.Inv.onlyRecord_resolveAt {s : State} (hi : s.Inv) (idx : BitVec 4) (pke vhi vlo : Word) :
    OnlyRecord (s.leave (.code (resolveCode s.cfg pke vhi vlo))) (s.resolveAt idx pke vhi vlo) idx
      Slave.resolve [] := by
  have left : (s.leave (.code (resolveCode s.cfg pke vhi vlo))).Inv := { hi with }
  rw [State.resolveAt, State.updateInRange_leave]
  exact left.onlyRecord_updateInRange idx Slave.resolve

/-- Settles O20: the rows differ in the ack nibble only, which picks the code. -/
theorem resolveMapsTheAckAndClearsTheRequest : Obligations.ResolveMapsTheAckAndClearsTheRequest := by
  intro s ack row idx low vhi vlo hi hrow
  have hak : akOf (ack ++ low) = ack := akOf_append ack low
  refine ⟨_, _, exec_resolveRow hrow idx low vhi vlo s, rfl, hi.onlyRecord_resolveAt idx _ vhi vlo,
    ?_, ?_, ?_, ?_, ?_⟩
  · exact fun h => resolveCode_noResp vhi vlo (hak.trans h)
  · exact fun h => resolveCode_noRights vhi vlo hi.params (hak.trans h)
  · exact fun h he => (resolveCode_cantExecute vhi vlo hi.params (hak.trans h)).trans (if_pos he)
  · exact fun h he => (resolveCode_cantExecute vhi vlo hi.params (hak.trans h)).trans (if_neg he)
  · exact fun h1 h2 h3 => resolveCode_other vhi vlo (hak.trans_ne h1) (hak.trans_ne h2) (hak.trans_ne h3)

/-! ## The code of an accepted frame -/

/-- An accepted frame answers the code of its acknowledgment for a `Pending` slave, and 0 for an `Idle` one
(R180, D16). -/
theorem State.receiveCode_of_frameFrom {s : State} (hw : Memory.wf s.rxbuf = true)
    (hf : FrameFrom s.cfg (s.addrAt s.cursor) s.rxBytes) : s.receiveCode =
      if (s.slave s.cursor).pending then
        resolveCode s.cfg (frameWordAt s.rxBytes 3) (frameWordAt s.rxBytes 7) (frameWordAt s.rxBytes 9)
      else rcOk := by
  classical
  unfold State.receiveCode
  rw [State.accepted_eq hw, if_pos hf]
  rfl

/-- Settles O38: the code is 0 without a request, and with one that no named ack code answers. -/
theorem acceptedFrameIsOtherwiseSuccess : Obligations.AcceptedFrameIsOtherwiseSuccess := by
  intro s t hi h hf hor
  obtain ⟨_, _, rfl⟩ := execReceive_next h
  have hcode : s.receiveCode = rcOk := by
    rw [State.receiveCode_of_frameFrom hi.rxbufWf hf]
    rcases hor with hidle | ⟨h1, h2, h3⟩
    · rw [hidle]; rfl
    · rw [resolveCode_other _ _ h1 h2 h3, ite_self]
  rw [State.respond_responses, State.receive_responses, hcode]
  rfl

/-! ## A SETPARAM and the step inside it -/

theorem step_of_paramGate {s : State} {idx : BitVec 4} (hl : s.resetLine = false) (hq : s.seq = .paramGate idx) :
    step s = paramLoop idx s := by
  simp [step, hl, hq]

/-- A `SETPARAM_*` in range and in its phase scans with its request recorded (R200). -/
theorem setparam_of_inRange {s : State} {idx : BitVec 4} (hr : s.inRange idx = true) (hp : s.sendPhase = true)
    (request : Slave → Slave) : setparam idx request s = paramLoop idx (s.updateInRange idx request) := by
  rw [State.updateInRange_of_inRange hr, setparam, if_pos hr, if_pos hp]

/-- A block with a configured slave is configured, so it may send while the window is closed. -/
theorem State.Inv.sendPhase_of_lt_count {s : State} (hi : s.Inv) {k : Nat} (hk : k < s.count)
    (hw : s.windowOpen = false) : s.sendPhase = true := by
  refine State.sendPhase_iff.mpr ⟨?_, hw⟩
  by_contra hc
  have := (hi.unconfigured (by simpa using hc)).1
  omega

/-- Settles O43: the state with the request recorded is the update in range, and where the sequencer stands plays no
part in the scan. -/
theorem setparamRecordsThenScans : Obligations.SetparamRecordsThenScans := by
  intro s r i idx pke vhi vlo hi hs hk hw hl hrec
  have hr : r = s.updateInRange idx (Slave.request pke vhi vlo) :=
    hrec.unique (hi.onlyRecord_updateInRange idx (Slave.request pke vhi vlo))
  have hlr : r.resetLine = false := by
    rw [hr, ← State.updateInRange_frame]
    exact hl
  calc exec i s = setparam idx (Slave.request pke vhi vlo) s := exec_isSetparam hs
    _ = paramLoop idx r := by
      rw [setparam_of_inRange ((s.inRange_iff idx).mpr hk) (hi.sendPhase_of_lt_count hk hw), hr]
    _ = paramLoop idx (r.toSeq (.paramGate idx)) := (paramLoop_toSeq r idx _).symm
    _ = step (r.toSeq (.paramGate idx)) := (step_of_paramGate (s := r.toSeq (.paramGate idx)) hlr rfl).symm

/-! ## The transitions of a Parameter Channel -/

/-- The four request words of a slave (R21). -/
def Slave.requestWords (r : Slave) : Pkw := ⟨r.pke, r.ind, r.vhi, r.vlo⟩

theorem Slave.requestWords_eq_iff {q r : Slave} : r.requestWords = q.requestWords ↔
    r.pke = q.pke ∧ r.ind = q.ind ∧ r.vhi = q.vhi ∧ r.vlo = q.vlo := by
  simp [Slave.requestWords]

/-- An operation that is no request for the slave keeps its request words and makes it no `Pending` slave. -/
theorem RecordChange.of_not_requests {s : State} {i : Instr} {k : Nat} {q r : Slave} (h : RecordChange s i k q r)
    (hr : i.requests k = false) :
    r.requestWords = q.requestWords ∧ (q.pending = false → r.pending = false) := by
  have noSetparam {idx : BitVec 4} {pke vhi vlo : Word} (hs : IsSetparam s.cfg i idx pke vhi vlo)
      (hk : idx.toNat = k) : False := by
    rw [Instr.requests_isSetparam hs, decide_eq_true hk] at hr
    cases hr
  cases h with
  | request idx p pke vhi vlo hk hi =>
    rcases hi with ⟨w, rfl⟩ | ⟨v, rfl | rfl⟩ <;> exact absurd hk (of_decide_eq_false hr)
  | resolve hq => cases hr.symm.trans hq
  | recorded idx pke vhi vlo hs hk => exact (noSetparam hs hk).elim
  | recordedScanned idx pke vhi vlo f hs hk => exact (noSetparam hs hk).elim
  | received | scanned => exact ⟨rfl, fun _ => rfl⟩
  | kept | ctl | setpoint => exact ⟨rfl, id⟩

/-- A record that `RECEIVE` changes is the cursor's, and the frame is accepted (R180, R181). -/
theorem exec_receive_changes {s t : State} {k : Nat} (hi : s.Inv) (h : exec .receive s = .next t)
    (hne : t.slave k ≠ s.slave k) : s.cursor = k ∧ FrameFrom s.cfg (s.addrAt k) s.rxBytes := by
  classical
  have hslave := exec_receive_slave hi h k
  split at hslave
  · rename_i hk
    obtain ⟨hf, rfl⟩ := hk
    exact ⟨rfl, hf⟩
  · exact absurd hslave hne

/-- A `SETPARAM_*` of another slave changes a record only by the frame its scan accepts. -/
theorem exec_isSetparam_changes {s t : State} {k : Nat} {i : Instr} {idx : BitVec 4} {pke vhi vlo : Word}
    (hi : s.Inv) (hs : IsSetparam s.cfg i idx pke vhi vlo) (hk : idx.toNat ≠ k) (h : exec i s = .next t)
    (hne : t.slave k ≠ s.slave k) :
    s.wrapped = k ∧ FrameFrom s.cfg (s.addrAt k) s.afterNow.afterNow.rxBytes := by
  rw [exec_isSetparam hs] at h
  have hslave := setparam_slave hi.rxbufWf h k
  dsimp only at hslave
  rw [if_neg fun hk' => hk hk'.1.symm] at hslave
  rcases hslave with e | ⟨hf, rfl, _⟩
  · exact absurd e hne
  · exact ⟨rfl, hf⟩

/-- Settles O22: what no request for the slave can change in its record, and the two ways a frame resolves it. -/
theorem parameterChannelTransitions : Obligations.ParameterChannelTransitions := by
  intro s t i k hi h hr
  have change := exec_recordChange hi h k
  obtain ⟨hwords, hidle⟩ := change.of_not_requests hr
  obtain ⟨hpke, hind, hvhi, hvlo⟩ := Slave.requestWords_eq_iff.mp hwords
  refine ⟨hpke, hind, hvhi, hvlo, hidle, fun hp hp' => ?_⟩
  have hne : t.slave k ≠ s.slave k := fun e => by rw [e, hp] at hp'; cases hp'
  by_cases hset : ∃ idx pke vhi vlo, IsSetparam s.cfg i idx pke vhi vlo
  · obtain ⟨idx, pke, vhi, vlo, hs⟩ := hset
    have hk : idx.toNat ≠ k := of_decide_eq_false ((Instr.requests_isSetparam hs k).symm.trans hr)
    exact .inr ⟨⟨idx, pke, vhi, vlo, hs⟩, exec_isSetparam_changes hi hs hk h hne⟩
  · by_cases hrec : i = .receive ∧ s.cursor = k
    · obtain ⟨rfl, hk⟩ := hrec
      exact .inl ⟨rfl, exec_receive_changes hi h hne⟩
    · obtain ⟨_, _, hpend⟩ := change.received_eq hrec fun hc => hset hc.1
      rw [hpend hr, hp] at hp'
      cases hp'

/-! ## An unresolved request stays -/

/-- The request of slave `k` that waits in `s` still waits in `t`, with the same words. -/
structure StillPending (k : Nat) (s t : State) : Prop where
  pending : (t.slave k).pending = true
  words : (t.slave k).requestWords = (s.slave k).requestWords

theorem StillPending.of_slave_eq {k : Nat} {s t : State} (hp : (s.slave k).pending = true)
    (h : t.slave k = s.slave k) : StillPending k s t :=
  ⟨by rw [h, hp], by rw [h]⟩

/-- A `SETPARAM_*` of another slave leaves a record none of whose frames its scan accepts. -/
theorem exec_isSetparam_keeps {s t : State} {k : Nat} {i : Instr} {idx : BitVec 4} {pke vhi vlo : Word}
    (hw : Memory.wf s.rxbuf = true) (hs : IsSetparam s.cfg i idx pke vhi vlo) (hk : idx.toNat ≠ k)
    (hn : idx.toNat < s.count → ¬ s.scanAccepts k) (h : exec i s = .next t) : t.slave k = s.slave k := by
  rw [exec_isSetparam hs] at h
  rcases setparam_next h with ⟨_, rfl⟩ | ⟨hr, _, hloop⟩
  · rfl
  · have hn' : ¬ (s.updateSlave idx.toNat (Slave.request pke vhi vlo)).scanAccepts k :=
      hn ((s.inRange_iff idx).mp hr)
    rw [paramLoop_keeps (s := s.updateSlave idx.toNat (Slave.request pke vhi vlo)) hw hloop hn', State.slave_updateSlave, if_neg fun hk' => hk hk'.1.symm]

/-- An operation between commands keeps a request it neither makes nor resolves by an accepted frame (R137). -/
theorem exec_stillPending {s t : State} {k : Nat} {i : Instr} (hi : s.Inv) (hp : (s.slave k).pending = true)
    (hr : i.requests k = false)
    (ha : i = .receive → s.cursor = k → ¬ FrameFrom s.cfg (s.addrAt k) s.rxBytes)
    (hs : ∀ idx pke vhi vlo, IsSetparam s.cfg i idx pke vhi vlo → idx.toNat < s.count → ¬ s.scanAccepts k)
    (h : exec i s = .next t) : StillPending k s t := by
  by_cases hset : ∃ idx pke vhi vlo, IsSetparam s.cfg i idx pke vhi vlo
  · obtain ⟨idx, pke, vhi, vlo, hset⟩ := hset
    have hk : idx.toNat ≠ k := of_decide_eq_false ((Instr.requests_isSetparam hset k).symm.trans hr)
    exact .of_slave_eq hp (exec_isSetparam_keeps hi.rxbufWf hset hk (hs idx pke vhi vlo hset) h)
  · obtain ⟨hpke, hind, hvhi, hvlo, _, hresolved⟩ := parameterChannelTransitions s t i k hi h hr
    refine ⟨?_, Slave.requestWords_eq_iff.mpr ⟨hpke, hind, hvhi, hvlo⟩⟩
    by_contra hn
    rcases hresolved hp (by simpa using hn) with ⟨hrec, hk, hf⟩ | ⟨hset', _⟩
    · exact ha hrec hk hf
    · exact hset hset'

/-- A step inside a `SEND` or a `SETPARAM_*` runs that command's loop. -/
theorem step_goesOn {s t : State} (hq : s.seq ≠ .idle) (hl : s.resetLine = false) (h : step s = .next t) :
    sendLoop s = .next t ∨ ∃ idx, s.seq = .paramGate idx ∧ paramLoop idx s = .next t := by
  rcases step_next h with ⟨hr, _⟩ | ⟨_, _, h⟩ | ⟨idx, _, hq', h⟩ | ⟨_, hq', _⟩ | ⟨_, _, _, _, hq', _⟩
  · cases hl.symm.trans hr
  · exact .inl h
  · exact .inr ⟨idx, hq', h⟩
  · exact absurd hq' hq
  · exact absurd hq' hq

theorem sendLoop_slaves {s t : State} (h : sendLoop s = .next t) : t.slaves = s.slaves := by
  rcases sendLoop_next h with ⟨_, rfl⟩ | ⟨_, _, rfl⟩
  · rfl
  · exact s.scanStart_slaves

/-- A step inside a command whose scan accepts no frame from the slave keeps its request. -/
theorem step_stillPending {s t : State} {k : Nat} (hi : s.Inv) (hp : (s.slave k).pending = true)
    (hq : s.seq ≠ .idle) (hl : s.resetLine = false)
    (ha : ∀ idx, s.seq = .paramGate idx → ¬ s.scanAccepts k) (h : step s = .next t) : StillPending k s t := by
  rcases step_goesOn hq hl h with h | ⟨idx, hq', h⟩
  · exact .of_slave_eq hp (State.slave_congr (sendLoop_slaves h) k)
  · exact .of_slave_eq hp (paramLoop_keeps hi.rxbufWf h (ha idx hq'))

/-- Along every run without an accepted frame from the slave the invariant and the request stay. -/
theorem Unresolved.stillPending {k : Nat} {s u : State} (h : Unresolved k s u) (hi : s.Inv)
    (hp : (s.slave k).pending = true) : u.Inv ∧ StillPending k s u := by
  induction h with
  | nil s => exact ⟨hi, hp, rfl⟩
  | op hq hr ha hs h _ ih =>
    have one := exec_stillPending hi hp hr ha hs h
    obtain ⟨hu, later⟩ := ih (exec_inv hi hq h) one.pending
    exact ⟨hu, later.pending, later.words.trans one.words⟩
  | goesOn hq hl ha h _ ih =>
    have one := step_stillPending hi hp hq hl ha h
    obtain ⟨hu, later⟩ := ih (stepKeepsTheInvariant _ _ hi h) one.pending
    exact ⟨hu, later.pending, later.words.trans one.words⟩

/-! ## The telegram of one SEND -/

/-- The telegram to a slave is composed of the valuation, its address and its record (R176). -/
theorem State.telegramTo_congr {s t : State} {k : Nat} (hc : t.cfg = s.cfg) (ha : t.addr = s.addr)
    (hk : t.slave k = s.slave k) : t.telegramTo k = s.telegramTo k := by
  simp only [State.telegramTo, hc, hk, State.addrAt_congr ha]

/-- The first scan of a `SETPARAM_*` of another slave writes the telegram as the record stood before it. -/
theorem exec_isSetparam_txWrites {s t : State} {k : Nat} {i : Instr} {idx : BitVec 4} {pke vhi vlo : Word}
    (hw : Memory.wf s.txbuf = true) (hs : IsSetparam s.cfg i idx pke vhi vlo) (hr : idx.toNat < s.count)
    (hk : idx.toNat ≠ k) (hwr : s.wrapped = k) (h : exec i s = .next t) :
    (¬ s.gateEnds → txWrites (t.trace.drop s.trace.length) = []) ∧
    (s.gateEnds → txWrites (t.trace.drop s.trace.length) = [s.telegramTo k]) := by
  rw [exec_isSetparam hs] at h
  rcases setparam_next h with ⟨hout, _⟩ | ⟨_, _, hloop⟩
  · rw [(s.inRange_iff idx).mpr hr] at hout
    cases hout
  · have same : (s.updateSlave idx.toNat (Slave.request pke vhi vlo)).telegramTo k = s.telegramTo k :=
      State.telegramTo_congr rfl rfl (by rw [State.slave_updateSlave, if_neg fun hk' => hk hk'.1.symm])
    have key := paramLoop_txWrites (s := s.updateSlave idx.toNat (Slave.request pke vhi vlo)) hw hloop
    rw [← same, ← hwr]
    exact key

/-- One `SEND`, alone or inside a `SETPARAM_*`, writes the one telegram of the slave whose turn it is once its gate
ends. -/
theorem SendsOnce.txWrites {k : Nat} {s t : State} (h : SendsOnce k s t) (hw : Memory.wf s.txbuf = true)
    (hk : s.wrapped = k) :
    (¬ s.gateEnds → txWrites (t.trace.drop s.trace.length) = []) ∧
    (s.gateEnds → txWrites (t.trace.drop s.trace.length) = [s.telegramTo k]) := by
  cases h with
  | send h => exact hk ▸ sendLoop_txWrites hw (execSend_next h).2
  | setparam hs hr hne h => exact exec_isSetparam_txWrites hw hs hr hne hk h
  | goesOn hq hl h =>
    rcases step_goesOn hq hl h with h | ⟨idx, _, h⟩
    · exact hk ▸ sendLoop_txWrites hw h
    · exact hk ▸ paramLoop_txWrites hw h

/-- Settles O23: the request waits along the run, and the telegram of a `Pending` slave carries its words. -/
theorem pendingRequestIsResentUnchanged : Obligations.PendingRequestIsResentUnchanged := by
  intro s u k hi hp hrun
  obtain ⟨hu, hpend, hwords⟩ := hrun.stillPending hi hp
  obtain ⟨hpke, hind, hvhi, hvlo⟩ := Slave.requestWords_eq_iff.mp hwords
  refine ⟨hpend, hpke, hind, hvhi, hvlo, fun v hsend hk => ?_⟩
  obtain ⟨waits, sends⟩ := hsend.txWrites hu.txbufWf hk
  refine ⟨waits, fun hg => ⟨u.telegramTo k, sends hg, ?_⟩⟩
  rw [← hpke, ← hind, ← hvhi, ← hvlo]
  exact State.telegramTo_pending hpend

end Sys2Proof.Machine
end

section
/-! PROOFS. The family 42_pzd_channel.md: the setters write one record (O10, O11, O12); the getters answer a word of it
(O13, O14); all five do so in every phase (O15); and a `SETPARAM_*` out of range is a no-op like them (O45). -/

namespace Sys2Proof.Machine

/-! ## A SETPARAM out of range -/

theorem State.inRange_eq_false_iff (s : State) (idx : BitVec 4) :
    s.inRange idx = false ↔ s.count ≤ idx.toNat := by
  simp [State.inRange]

/-- A `SETPARAM_*` out of range draws its code, before any look at the phase (R203). -/
theorem setparam_of_count_le {s : State} {idx : BitVec 4} (h : s.count ≤ idx.toNat) (request : Slave → Slave) :
    setparam idx request s = .next (s.afterDraw.respond (Config.freeCode s.draws) 0#16) := by
  simp [setparam, (s.inRange_eq_false_iff idx).mpr h, done]

/-- Settles O45: out of range the phase is not looked at. -/
theorem setparamOutOfRangeIsANoOp : Obligations.SetparamOutOfRangeIsANoOp := by
  intro s i idx pke vhi vlo hs hout
  rw [exec_isSetparam hs, setparam_of_count_le hout]
  exact ⟨_, _, rfl⟩

/-! ## The setters -/

/-- A response delivered is one more on the list, and no part of a record. -/
theorem OnlyRecord.respond {s u : State} {idx : BitVec 4} {f : Slave → Slave} {responses : List Response}
    (h : OnlyRecord s u idx f responses) (c : Code) (v : Word) :
    OnlyRecord s (u.respond c v) idx f (responses ++ [⟨c, v⟩]) where
  records := h.records
  length := h.length
  others := by
    rw [State.respond, ← List.append_assoc]
    conv_lhs => rw [h.others]

/-- A setter writes one record in range and answers 0 (R150 to R152, R155). -/
theorem State.Inv.onlyRecord_setter {s : State} (hi : s.Inv) (idx : BitVec 4) (f : Slave → Slave) :
    OnlyRecord s ((s.updateInRange idx f).respond rcOk 0#16) idx f [⟨0#32, 0#16⟩] :=
  (hi.onlyRecord_updateInRange idx f).respond rcOk 0#16

/-- Settles O10: `SET_SETPOINT` is a setter. -/
theorem setSetpointOverwritesTheSetpoint : Obligations.SetSetpointOverwritesTheSetpoint :=
  fun _ idx _ hi => ⟨_, rfl, hi.onlyRecord_setter idx _⟩

/-- Settles O11: `SET_CTL` is a setter. -/
theorem setCtlOrsTheMask : Obligations.SetCtlOrsTheMask :=
  fun _ idx _ hi => ⟨_, rfl, hi.onlyRecord_setter idx _⟩

/-- Settles O12: `CLR_CTL` is a setter. -/
theorem clrCtlClearsTheMask : Obligations.ClrCtlClearsTheMask :=
  fun _ idx _ hi => ⟨_, rfl, hi.onlyRecord_setter idx _⟩

/-! ## The getters -/

/-- In range a getter answers its value. -/
theorem State.answer_of_lt_count {s : State} {idx : BitVec 4} (h : idx.toNat < s.count) (value : Word) :
    s.answer idx value = s.respond rcOk value := if_pos ((s.inRange_iff idx).mpr h)

/-- Out of range a getter answers a draw. -/
theorem State.answer_of_count_le {s : State} {idx : BitVec 4} (h : s.count ≤ idx.toNat) (value : Word) :
    s.answer idx value = s.afterDraw.respond rcOk (Config.freeValue s.draws) := by
  simp [State.answer, (s.inRange_eq_false_iff idx).mpr h]

theorem exec_getActual (s : State) (idx : BitVec 4) :
    exec (.getActual idx) s = .next (s.answer idx (s.slave idx.toNat).actual) := rfl

theorem exec_chkStatus (s : State) (idx : BitVec 4) (mask : Word) :
    exec (.chkStatus idx mask) s = .next (s.answer idx (statusFlag (s.slave idx.toNat).status mask)) := rfl

/-- Settles O13: `GET_ACTUAL` is the getter of `actual`. -/
theorem getActualAnswersTheLastValue : Obligations.GetActualAnswersTheLastValue := by
  intro s idx
  rw [exec_getActual]
  refine ⟨fun hin => ?_, fun hout => ?_⟩
  · rw [State.answer_of_lt_count hin]; rfl
  · rw [State.answer_of_count_le hout]; exact ⟨_, _, rfl⟩

theorem statusFlag_eq_zero_or_one (status mask : Word) :
    statusFlag status mask = 0#16 ∨ statusFlag status mask = 1#16 := by
  unfold statusFlag
  split
  · exact .inr rfl
  · exact .inl rfl

/-- Two words have a bit in common exactly if their conjunction is not 0. -/
theorem and_ne_zero_iff_exists_getLsbD {w : Nat} (x y : BitVec w) :
    x &&& y ≠ 0#w ↔ ∃ k, k < w ∧ x.getLsbD k = true ∧ y.getLsbD k = true := by
  simp only [ne_eq, BitVec.zero_iff_eq_false, BitVec.getLsbD_and, not_forall, Bool.not_eq_false,
    Bool.and_eq_true]
  exact exists_congr fun _ => ⟨fun h => ⟨BitVec.lt_of_getLsbD h.1, h⟩, And.right⟩

/-- The flag is 1 for any bit of the mask (R154, D21). -/
theorem statusFlag_eq_one_iff (status mask : Word) :
    statusFlag status mask = 1#16 ↔ ∃ k, k < 16 ∧ status.getLsbD k = true ∧ mask.getLsbD k = true := by
  rw [← and_ne_zero_iff_exists_getLsbD]
  simp [statusFlag]

/-- Settles O14: `CHK_STATUS` is the getter of the flag. -/
theorem chkStatusTestsTheMask : Obligations.ChkStatusTestsTheMask := by
  intro s idx mask
  rw [exec_chkStatus]
  refine ⟨fun hin => ?_, fun hout => ?_⟩
  · rw [State.answer_of_lt_count hin]
    exact ⟨_, rfl, statusFlag_eq_zero_or_one _ mask, statusFlag_eq_one_iff _ mask⟩
  · rw [State.answer_of_count_le hout]
    exact ⟨_, _, rfl⟩

/-! ## The five commands on the bus state -/

/-- What a process-data command with index `idx` leaves: the bus, the cursor, the window, the gate, the line and every
pending bit, and out of range all records (R155, R156). -/
def KeepsBusState (s t : State) (idx : BitVec 4) : Prop :=
  t.cursor = s.cursor ∧ t.windowOpen = s.windowOpen ∧ t.nextSend = s.nextSend ∧ t.de = s.de ∧ t.trace = s.trace ∧
    (∀ k, (t.slave k).pending = (s.slave k).pending) ∧ (s.count ≤ idx.toNat → t.slaves = s.slaves)

/-- Writing one record, but not its pending bit, keeps the bus state. -/
theorem OnlyRecord.keepsBusState {s t : State} {idx : BitVec 4} {f : Slave → Slave} {responses : List Response}
    (h : OnlyRecord s t idx f responses) (hf : ∀ r, (f r).pending = r.pending) : KeepsBusState s t idx := by
  have hpending : ∀ k, (t.slave k).pending = (s.slave k).pending := fun k => by
    rw [h.records, apply_ite Slave.pending, hf, ite_self]
  have hslaves : s.count ≤ idx.toNat → t.slaves = s.slaves := fun hout =>
    State.slaves_eq_of_slave_eq h.length fun k => by
      rw [h.records, if_neg fun hk => absurd hk.2 (Nat.not_lt.mpr hout)]
  rw [h.others]
  exact ⟨rfl, rfl, rfl, rfl, rfl, hpending, hslaves⟩

/-- A getter writes its response and at most the count of draws. -/
theorem State.keepsBusState_answer (s : State) (idx : BitVec 4) (value : Word) :
    KeepsBusState s (s.answer idx value) idx := by
  rcases Nat.lt_or_ge idx.toNat s.count with hin | hout
  · rw [State.answer_of_lt_count hin]
    exact ⟨rfl, rfl, rfl, rfl, rfl, fun _ => rfl, fun _ => rfl⟩
  · rw [State.answer_of_count_le hout]
    exact ⟨rfl, rfl, rfl, rfl, rfl, fun _ => rfl, fun _ => rfl⟩

/-- Settles O15: a setter writes one record but not its pending bit, and a getter writes none. -/
theorem processDataCommandsIgnoreThePhase : Obligations.ProcessDataCommandsIgnoreThePhase := by
  intro s idx a i hi hcmd
  rcases hcmd with rfl | rfl | rfl | rfl | rfl
  · exact ⟨_, rfl, (hi.onlyRecord_setter idx _).keepsBusState fun _ => rfl⟩
  · exact ⟨_, rfl, (hi.onlyRecord_setter idx _).keepsBusState fun _ => rfl⟩
  · exact ⟨_, rfl, (hi.onlyRecord_setter idx _).keepsBusState fun _ => rfl⟩
  · exact ⟨_, exec_getActual s idx, s.keepsBusState_answer idx _⟩
  · exact ⟨_, exec_chkStatus s idx a, s.keepsBusState_answer idx _⟩

end Sys2Proof.Machine
end

section
/-! PROOFS. The family 43_scheduler.md: what `CONFIGURE` does, reports and refuses (O30, O31, O32); a `SEND` whose gate
ends or waits, and the telegram it composes (O33, O34, O35); a `RECEIVE` and the frames it rejects (O36, O39); every
step keeps the minimum period (O52), and the cursor covers the slaves in turn (O56). -/

namespace Sys2Proof.Machine

/-! ## The minimum period over the events of one operation -/

/-- What one `SEND` whose gate ended at the sample `t` and was re-armed at `t2` makes of the check. -/
def PeriodCheck.afterSend (period bound t t2 : Tick) (p : PeriodCheck) : PeriodCheck where
  sample := none
  allowed := t2 + period
  rearming := false
  inTime := p.inTime && decide (p.allowed ≤ t)
  excused := p.excused && (decide (p.allowed ≤ t) || decide (bound ≤ p.allowed - t))

theorem periodCheck_sendEvents {period bound : Tick} {trace : List Event}
    (hr : (periodCheck period bound trace).rearming = false) (s : State) (t t2 : Tick) (tele : List Byte) :
    periodCheck period bound (trace ++ .now t :: s.sendEvents tele t2) =
      (periodCheck period bound trace).afterSend period bound t t2 := by
  rw [periodCheck_append]
  simp [State.sendEvents, PeriodCheck.after, PeriodCheck.sent, PeriodCheck.afterSend, hr]

theorem State.periodCheck_scanStart {s : State} (hg : s.gateEnds) (hw : Memory.wf s.txbuf = true)
    (hr : s.periodCheck.rearming = false) : s.selected.transmit.periodCheck =
      s.periodCheck.afterSend s.period (10 * s.cfg.ticksPerSecond) s.nowValue s.afterNow.nowValue := by
  rw [State.scanStart_eq hg hw]
  exact periodCheck_sendEvents hr s _ _ _

/-- A gate sample is noted until the next telegram. -/
theorem State.periodCheck_afterGate {s : State} (hr : s.periodCheck.rearming = false) :
    s.afterGate.periodCheck = { s.periodCheck with sample := some s.nowValue } := by
  have sampled : s.periodCheck.after s.period (10 * s.cfg.ticksPerSecond) (.now s.nowValue) =
      { s.periodCheck with sample := some s.nowValue } := by simp [PeriodCheck.after, hr]
  exact (periodCheck_append _ _ s.trace _).trans sampled

/-- A read and the line take no part in the check. -/
theorem State.periodCheck_receive (s : State) : s.receive.periodCheck = s.periodCheck := by
  rw [State.receive_eq]
  exact periodCheck_append _ _ s.trace _

/-- `CONFIGURE` runs before any event that the check reads, under whatever period. -/
theorem State.periodCheck_configure {s : State} (ht : s.trace = []) (n : BitVec 4) (margin : Word) (baud : DWord) :
    (s.configure n margin baud).periodCheck = ⟨none, 0, false, true, true⟩ := by
  rw [State.periodCheck, State.configure_trace, ht]
  rfl

/-! ## The minimum period in each phase of the block -/

namespace State.PeriodOk

variable {s : State} (h : s.PeriodOk)
include h

theorem toSeq (q : Seq) : (s.toSeq q).PeriodOk := { h with }

theorem respond (c : Code) (v : Word) : (s.respond c v).PeriodOk := { h with }

/-- A waiting gate sends nothing and abandons nothing. -/
theorem waiting (hc : s.configured = true) (hg : s.gate = .waiting) : s.afterGate.PeriodOk where
  unconfigured hc' := by cases hc.symm.trans hc'
  armed := by
    rw [State.periodCheck_afterGate h.armed.2]
    exact h.armed
  excused := by
    rw [State.periodCheck_afterGate h.armed.2]
    exact h.excused
  sticky := by
    rw [State.periodCheck_afterGate h.armed.2]
    simp [State.afterGate, hg, h.sticky]

/-- The last sample of the gate is compared with the time the gate was armed with: it is in time by case (a) of
R175, excused by case (b), and case (b) is what sets `gate_abandoned`. -/
theorem sent (hc : s.configured = true) (hw : Memory.wf s.txbuf = true) (hg : s.gateEnds) :
    s.selected.transmit.PeriodOk := by
  obtain ⟨hallowed, hrearming⟩ := h.armed
  have check := State.periodCheck_scanStart hg hw hrearming
  rw [PeriodCheck.afterSend, hallowed, h.excused] at check
  have state := State.scanStart_eq hg hw
  have late : decide (s.nowValue < s.nextSend) = !decide (s.nextSend ≤ s.nowValue) := by
    rw [← decide_not, decide_eq_decide, Nat.not_le]
  exact {
    unconfigured := fun hc' => by
      rw [state] at hc'
      cases hc.symm.trans hc'
    armed := by
      rw [check, state]
      exact ⟨rfl, rfl⟩
    excused := by
      rw [check]
      simpa [State.gateEnds] using hg
    sticky := by
      rw [check, state]
      show (s.gateAbandoned || decide (s.nowValue < s.nextSend)) = _
      rw [h.sticky, Bool.not_and, late] }

theorem receive (hc : s.configured = true) : s.receive.PeriodOk where
  unconfigured hc' := by
    rw [State.receive_eq] at hc'
    cases hc.symm.trans hc'
  armed := by
    rw [State.periodCheck_receive, State.receive_eq]
    exact h.armed
  excused := by
    rw [State.periodCheck_receive]
    exact h.excused
  sticky := by
    rw [State.periodCheck_receive, State.receive_eq]
    exact h.sticky

theorem scan (hc : s.configured = true) (hw : Memory.wf s.txbuf = true) (hg : s.gateEnds) : s.scan.PeriodOk := by
  have hc' : s.selected.transmit.configured = true := by
    rw [State.transmit_eq]
    exact hc
  exact (h.sent hc hw hg).receive hc'

theorem configure (hc : s.configured = false) (n : BitVec 4) (margin : Word) (baud : DWord) :
    (s.configure n margin baud).PeriodOk := by
  obtain ⟨htrace, _⟩ := h.unconfigured hc
  have check := State.periodCheck_configure htrace n margin baud
  have before : s.periodCheck.inTime = true := by
    rw [State.periodCheck, htrace]
    rfl
  exact {
    unconfigured := nofun
    armed := by
      rw [check]
      exact ⟨rfl, rfl⟩
    excused := by rw [check]
    sticky := by
      rw [check]
      exact h.sticky.trans (by rw [before]) }

end State.PeriodOk

/-! ## Every operation and every step keeps the minimum period -/

theorem sendLoop_periodOk {s t : State} (hp : s.PeriodOk) (hc : s.configured = true)
    (hw : Memory.wf s.txbuf = true) (h : sendLoop s = .next t) : t.PeriodOk := by
  rcases sendLoop_next h with ⟨hg, rfl⟩ | ⟨hg, _, rfl⟩
  · exact (hp.waiting hc hg).toSeq _
  · exact ((hp.sent hc hw ((State.gate_ends_iff s).mp hg)).toSeq _).respond _ _

theorem paramLoop_periodOk {idx : BitVec 4} {s t : State} (hp : s.PeriodOk) (hc : s.configured = true)
    (hw : Memory.wf s.txbuf = true) (h : paramLoop idx s = .next t) : t.PeriodOk := by
  rcases paramLoop_next h with ⟨hg, rfl⟩ | ⟨hg, _, _, rfl⟩ | ⟨hg, _, _, rfl⟩
  · exact (hp.waiting hc hg).toSeq _
  · exact (hp.scan hc hw ((State.gate_ends_iff s).mp hg)).toSeq _
  · exact ((hp.scan hc hw ((State.gate_ends_iff s).mp hg)).toSeq _).respond _ _

theorem setparam_periodOk {idx : BitVec 4} {request : Slave → Slave} {s t : State} (hp : s.PeriodOk)
    (hw : Memory.wf s.txbuf = true) (h : setparam idx request s = .next t) : t.PeriodOk := by
  rcases setparam_next h with ⟨_, rfl⟩ | ⟨_, hphase, hloop⟩
  · exact { hp with }
  · have recorded : (s.updateSlave idx.toNat request).PeriodOk := { hp with }
    exact paramLoop_periodOk recorded (State.sendPhase_iff.mp hphase).1 hw hloop

theorem exec_periodOk {i : Instr} {s t : State} (hp : s.PeriodOk) (hw : Memory.wf s.txbuf = true)
    (h : exec i s = .next t) : t.PeriodOk := by
  cases hb : i.isBus with
  | false =>
    rw [exec_other_frame hb h]
    exact { hp with }
  | true =>
    rcases Instr.isBus_cases hb s.cfg with ⟨n, margin, baud, rfl⟩ | rfl | rfl | ⟨idx, pke, vhi, vlo, hs⟩
    · obtain ⟨hc, _, ⟨e, rfl⟩ | ⟨_, _, _, rfl⟩⟩ := execConfigure_next h
      · exact hp.respond _ _
      · exact (hp.configure hc n margin baud).respond _ _
    · obtain ⟨hphase, hloop⟩ := execSend_next h
      exact sendLoop_periodOk hp (State.sendPhase_iff.mp hphase).1 hw hloop
    · obtain ⟨hphase, _, rfl⟩ := execReceive_next h
      exact (hp.receive (State.receivePhase_iff.mp hphase).1).respond _ _
    · rw [exec_isSetparam hs] at h
      exact setparam_periodOk hp hw h

/-- Settles O52: inside a command the invariant says that the block is configured; an idle block runs an operation,
which keeps the minimum period from any state that has it. -/
theorem stepKeepsTheMinimumPeriod : Obligations.StepKeepsTheMinimumPeriod := by
  intro s t hi hp h
  rcases step_next h with ⟨_, rfl⟩ | ⟨_, hq, h⟩ | ⟨idx, _, hq, h⟩ | ⟨_, _, _, rfl⟩ | ⟨e, rest, i, _, _, _, _, h⟩
  · exact { State.resetWith_periodOk s.cfg with }
  · exact sendLoop_periodOk hp (State.sendPhase_iff.mp (hi.sendPhase hq)).1 hi.txbufWf h
  · obtain ⟨hphase, _, _⟩ := hi.paramPhase idx hq
    exact paramLoop_periodOk hp (State.sendPhase_iff.mp hphase).1 hi.txbufWf h
  · exact hp
  · have accepted : (s.accept e rest).PeriodOk := { hp with }
    exact exec_periodOk accepted hi.txbufWf h

/-! ## The slave of the next telegram -/

/-- The cursor is where the scheduler can go on: on a configured slave, or past the last one between two scans
(R33, R42). -/
structure State.CursorOk (s : State) : Prop where
  countPos : 0 < s.count
  bound    : s.cursor ≤ s.count
  window   : s.windowOpen = true → s.cursor < s.count

theorem State.Inv.cursorOk {s : State} (hi : s.Inv) (hc : s.configured = true) : s.CursorOk where
  countPos := (hi.configuredOk hc).1
  bound := hi.cursorBound
  window hw := (hi.windowPhase hw).2.1

/-- The slave the next `SEND` goes to: with the window open, the one after the cursor's (R176, R182). -/
def State.nextTurn (s : State) : Nat := (if s.windowOpen then s.cursor + 1 else s.cursor) % s.count

theorem State.nextTurn_closed {s : State} (hw : s.windowOpen = false) : s.nextTurn = s.cursor % s.count := by
  simp [State.nextTurn, hw]

theorem State.nextTurn_open {s : State} (hw : s.windowOpen = true) : s.nextTurn = (s.cursor + 1) % s.count := by
  simp [State.nextTurn, hw]

theorem State.nextTurn_lt {s : State} (h : s.CursorOk) : s.nextTurn < s.count := Nat.mod_lt _ h.countPos

/-- The wrap of a `SEND` takes the cursor modulo the slave count (R176). -/
theorem State.wrapped_eq_mod {s : State} (h : s.CursorOk) : s.wrapped = s.cursor % s.count := by
  unfold State.wrapped
  split
  · rename_i he
    rw [he, Nat.mod_self]
  · rename_i he
    exact (Nat.mod_eq_of_lt (Nat.lt_of_le_of_ne h.bound he)).symm

/-! ## The turn along a run -/

/-- From `s` to `t` the block stays the same as far as the round robin can see: the same slaves, the same next one. -/
structure KeepsTurn (s t : State) : Prop where
  cursorOk : t.CursorOk
  count    : t.count = s.count
  turn     : t.nextTurn = s.nextTurn

/-- A `SEND` that completes has ended its gate, and opens the window with the cursor wrapped (R176, R178). -/
theorem exec_send_opens {s t : State} (h : exec .send s = .next t) (hw : t.windowOpen = true) :
    s.windowOpen = false ∧ s.gateEnds ∧ t.count = s.count ∧ t.cursor = s.wrapped ∧ s.wrapped < s.count := by
  obtain ⟨hp, hloop⟩ := execSend_next h
  have hclosed := (State.sendPhase_iff.mp hp).2
  rcases sendLoop_next hloop with ⟨_, rfl⟩ | ⟨hg, hlt, rfl⟩
  · cases hclosed.symm.trans hw
  · refine ⟨hclosed, (State.gate_ends_iff s).mp hg, ?_, s.scanStart_cursor, hlt⟩
    rw [State.transmit_eq]
    rfl

/-- A `SEND` that has not completed has taken one sample of its gate. -/
theorem exec_send_waits {s t : State} (h : exec .send s = .next t) (hw : t.windowOpen = false) :
    s.gate = .waiting ∧ t = s.afterGate.toSeq .sendGate := by
  rcases sendLoop_next (execSend_next h).2 with hwait | ⟨_, _, rfl⟩
  · exact hwait
  · rw [State.transmit_eq] at hw
    cases hw

theorem exec_send_takesTurn {s t : State} (hs : s.CursorOk) (h : exec .send s = .next t)
    (hw : t.windowOpen = true) :
    t.CursorOk ∧ t.count = s.count ∧ t.cursor = s.nextTurn ∧ t.nextTurn = (s.nextTurn + 1) % s.count := by
  obtain ⟨hclosed, _, hcount, hcursor, hlt⟩ := exec_send_opens h hw
  have hturn : t.cursor = s.nextTurn := by
    rw [hcursor, State.wrapped_eq_mod hs, State.nextTurn_closed hclosed]
  have hlt' : t.cursor < t.count := by rwa [hcursor, hcount]
  exact ⟨⟨Nat.zero_lt_of_lt hlt', hlt'.le, fun _ => hlt'⟩, hcount, hturn,
    by rw [State.nextTurn_open hw, hturn, hcount]⟩

theorem exec_send_waiting_keepsTurn {s t : State} (hs : s.CursorOk) (h : exec .send s = .next t)
    (hw : t.windowOpen = false) : KeepsTurn s t := by
  obtain ⟨_, rfl⟩ := exec_send_waits h hw
  exact ⟨{ hs with }, rfl, rfl⟩

/-- `RECEIVE` moves the cursor to the slave whose turn it is by then, whatever arrives (R182). -/
theorem exec_receive_keepsTurn {s t : State} (hs : s.CursorOk) (h : exec .receive s = .next t) : KeepsTurn s t := by
  obtain ⟨hp, hlt, rfl⟩ := execReceive_next h
  have hopen := (State.receivePhase_iff.mp hp).2
  rw [State.receive_eq]
  exact ⟨⟨hs.countPos, hlt, nofun⟩, rfl, (State.nextTurn_open hopen).symm⟩

theorem exec_other_keepsTurn {i : Instr} {s t : State} (hs : s.CursorOk) (hb : i.isBus = false)
    (h : exec i s = .next t) : KeepsTurn s t := by
  rw [exec_other_frame hb h]
  exact ⟨{ hs with }, rfl, rfl⟩

/-- The first `n` slaves of the round robin that begins with slave `c` of `count` (R183). -/
def roundRobin (count c n : Nat) : List Nat := (List.range n).map fun k => (c + k) % count

theorem roundRobin_succ {count c : Nat} (h : c < count) (n : Nat) :
    roundRobin count c (n + 1) = c :: roundRobin count ((c + 1) % count) n := by
  simp only [roundRobin, List.range_succ_eq_map, List.map_cons, List.map_map, Nat.add_zero, Nat.mod_eq_of_lt h]
  congr 1
  refine List.map_congr_left fun k _ => ?_
  rw [Function.comp_apply, Nat.mod_add_mod, Nat.add_assoc, Nat.add_comm 1 k]

theorem BusRun.eq_roundRobin {s u : State} {l : List Nat} (h : BusRun s l u) (hs : s.CursorOk) :
    l = roundRobin s.count s.nextTurn l.length := by
  have keeps {s t : State} {l : List Nat} (ht : KeepsTurn s t)
      (ih : t.CursorOk → l = roundRobin t.count t.nextTurn l.length) :
      l = roundRobin s.count s.nextTurn l.length := by
    rw [← ht.count, ← ht.turn]
    exact ih ht.cursorOk
  induction h with
  | nil s => rfl
  | @sent s t u l h hw _ ih =>
    obtain ⟨ht, hcount, hcursor, hturn⟩ := exec_send_takesTurn hs h hw
    have tail := ih ht
    rw [hcount, hturn] at tail
    rw [List.length_cons, roundRobin_succ (State.nextTurn_lt hs), ← tail, hcursor]
  | waited h hw _ ih => exact keeps (exec_send_waiting_keepsTurn hs h hw) ih
  | received h _ ih => exact keeps (exec_receive_keepsTurn hs h) ih
  | other hb h _ ih => exact keeps (exec_other_keepsTurn hs hb h) ih

/-- Settles O56: every `SEND` that completes takes the turn, and nothing else moves it. -/
theorem roundRobinCoverage : Obligations.RoundRobinCoverage := by
  intro s u l hi hc hw hrun
  rw [← State.nextTurn_closed hw]
  exact hrun.eq_roundRobin (hi.cursorOk hc)

/-! ## CONFIGURE -/

/-- What a successful `CONFIGURE` writes (R170, R172, R173). -/
theorem State.configure_eq (s : State) (n : BitVec 4) (margin : Word) (baud : DWord) :
    s.configure n margin baud = { s with
      configured := true, count := n.toNat, addr := s.cfgAddrs n.toNat ++ s.addr.drop n.toNat, baud := baud
      tChar := s.cfg.charTime baud, period := s.cfg.periodOf (s.cfg.charTime baud), deMargin := margin.toNat
      cursor := 0, windowOpen := false, nextSend := 0, deMode := .output, de := true
      trace := s.trace ++ [.pinMode, .de true] } := by
  rw [← s.configure_trace n margin baud]
  rfl

theorem State.length_cfgAddrs (s : State) (n : Nat) : (s.cfgAddrs n).length = n := by
  simp [State.cfgAddrs]

/-- An entry below `n` is the one the command brought (R95, R170). -/
theorem State.configure_addrAt_of_lt {s : State} {n : BitVec 4} {k : Nat} {a : BitVec 5} (hk : k < n.toNat)
    (ha : s.cfgAddr[k]? = some a) (margin : Word) (baud : DWord) :
    (s.configure n margin baud).addrAt k = a := by
  show (s.cfgAddrs n.toNat ++ s.addr.drop n.toNat).getD k 0#5 = a
  rw [List.getD_append _ _ _ _ (by rwa [State.length_cfgAddrs])]
  simp [State.cfgAddrs, List.getD_eq_getElem?_getD, hk, ha]

/-- An entry from `n` on stays. -/
theorem State.configure_addrAt_of_le {n : BitVec 4} {k : Nat} (hk : n.toNat ≤ k) (s : State) (margin : Word)
    (baud : DWord) : (s.configure n margin baud).addrAt k = s.addrAt k := by
  show (s.cfgAddrs n.toNat ++ s.addr.drop n.toNat).getD k 0#5 = s.addr.getD k 0#5
  rw [List.getD_append_right _ _ _ _ (by rwa [State.length_cfgAddrs]), State.length_cfgAddrs]
  simp [List.getD_eq_getElem?_getD, Nat.add_sub_cancel' hk]

/-- The default of `char_time`, where the valuation does not say otherwise (R172). -/
theorem Config.charTime_of_lookup_eq_none {c : Config} {baud : DWord} (h : c.charTimes.lookup baud = none) :
    c.charTime baud = (11 * c.ticksPerSecond + baud.toNat - 1) / baud.toNat := by
  rw [Config.charTime, h]
  rfl

section Configure

variable {s : State} {n : BitVec 4} {baud : DWord} (margin : Word) (hc : s.configured = false) (hb : baud ≠ 0#32)
include hc hb

theorem exec_configure_nullList (hl : s.cfgListPresent = false) :
    exec (.configure n margin baud) s = .next (s.raiseError .nullList) := by
  simp [exec, execConfigure, done, hc, hb, hl]

theorem exec_configure_tooMany (hl : s.cfgListPresent = true) (hn : s.cfg.maxSlaves < n.toNat) :
    exec (.configure n margin baud) s = .next (s.raiseError .tooMany) := by
  simp [exec, execConfigure, done, hc, hb, hl, hn]

theorem exec_configure_empty (hl : s.cfgListPresent = true) :
    exec (.configure 0#4 margin baud) s = .next (s.raiseError .empty) := by
  simp [exec, execConfigure, done, hc, hb, hl]

theorem exec_configure_success (hl : s.cfgListPresent = true) (hn : n ≠ 0#4) (hle : n.toNat ≤ s.cfg.maxSlaves) :
    exec (.configure n margin baud) s = .next ((s.configure n margin baud).respond rcOk 0#16) := by
  have hn' : n.toNat ≠ 0 := fun h => hn (BitVec.eq_of_toNat_eq h)
  simp [exec, execConfigure, done, hc, hb, hl, Nat.not_lt.mpr hle, hn']

end Configure

/-- Settles O30: the writes of a successful `CONFIGURE`, and the two halves of its address table. -/
theorem configureSetsUpTheBlock : Obligations.ConfigureSetsUpTheBlock := by
  intro s n margin baud hc hb hl hn hle
  refine ⟨_, exec_configure_success margin hc hb hl hn hle, ?_, rfl,
    fun h => Config.charTime_of_lookup_eq_none h, fun k a hk ha => State.configure_addrAt_of_lt hk ha margin baud,
    fun k hk => s.configure_addrAt_of_le hk margin baud, rfl⟩
  rw [State.configure_eq]
  rfl

/-- Settles O31: the three errors, with the codes that R10 wants nonzero. -/
theorem configureErrorsHaveNoEffect : Obligations.ConfigureErrorsHaveNoEffect := by
  intro s n margin baud hi hc hb
  obtain ⟨_, _, _, _, _, _, _, _, _, _, _, htoo, hnull, hempty, _, _⟩ := hi.params
  refine ⟨fun hl => ⟨hnull, exec_configure_nullList margin hc hb hl⟩,
    fun hl hn => ⟨htoo, exec_configure_tooMany margin hc hb hl hn⟩, ?_⟩
  rintro hl rfl
  exact ⟨hempty, exec_configure_empty margin hc hb hl⟩

/-- Settles O32: the two refusals come before any look at the list. -/
theorem configureRefusals : Obligations.ConfigureRefusals := by
  intro s n margin baud
  refine ⟨fun hc => if_pos hc, ?_⟩
  rintro hc rfl
  simp [exec, execConfigure, hc]

/-! ## SEND -/

theorem State.telegramTo_eq (s : State) (k : Nat) : s.telegramTo k =
    telegram s.cfg.lge (busAddress (s.addrAt k)) (s.slave k).pkw (s.slave k).pzd := rfl

/-- A transmission fills `TXBUF` with the telegram of the slave whose turn it is. -/
theorem State.scanStart_txbuf (s : State) : s.selected.transmit.txbuf =
    encodeInto s.cfg.lge (busAddress (s.addrAt s.wrapped)) (s.slave s.wrapped).pkw (s.slave s.wrapped).pzd s.txbuf := by
  rw [State.transmit_eq]
  rfl

/-- Settles O33: the rest of a `SEND` in closed form, and the bytes `ENCODE` leaves in `TXBUF`. -/
theorem sendTransmitsTheTelegram : Obligations.SendTransmitsTheTelegram := by
  intro s hi hc hw hg
  have hwf := hi.txbufWf
  refine ⟨_, exec_send_ends hi hc hw hg, ?_, fun o ho => ?_, fun o ho => ?_⟩
  · rw [State.scanStart_eq hg hwf]
    rfl
  · rw [State.respond_txbuf, State.toSeq_txbuf, State.scanStart_txbuf, State.telegramTo_eq]
    exact read_encodeInto hwf ho
  · rw [State.respond_txbuf, State.toSeq_txbuf, State.scanStart_txbuf]
    exact (Memory.read_beyond (wf_encodeInto hwf) ho).trans (Memory.read_beyond hwf ho).symm

/-- An answer that is not queued is drawn. -/
theorem ite_isEmpty_add_one {α : Type} (l : List α) (n : Nat) :
    (if l.isEmpty then n + 1 else n) = n + (1 - l.length) := by
  cases l <;> simp

theorem State.afterNow_eq (s : State) : s.afterNow =
    { s with
      nowIn := s.nowIn.drop 1, draws := s.draws + (1 - s.nowIn.length)
      trace := s.trace ++ [.now s.nowValue] } := by
  rw [← ite_isEmpty_add_one, List.drop_one]
  rfl

/-- A gate sample that lets the block wait is a clock sample and nothing else (R175). -/
theorem State.afterGate_of_waiting {s : State} (h : s.gate = .waiting) : s.afterGate = s.afterNow := by
  have : (s.gateAbandoned || decide (s.gate = .abandoned)) = s.gateAbandoned := by simp [h]
  rw [State.afterGate, this]
  rfl

theorem sendLoop_waiting {s : State} (h : s.gate = .waiting) :
    sendLoop s = .next (s.afterNow.toSeq .sendGate) := by
  rw [sendLoop, if_pos h, State.afterGate_of_waiting h]
  rfl

/-- Settles O34: case (c) of the gate, one step of `SEND`'s loop. -/
theorem sendWaitsInItsGate : Obligations.SendWaitsInItsGate := by
  intro s hc hw hg
  obtain ⟨hbefore, hbound⟩ := not_or.mp hg
  refine ⟨Nat.not_le.mp hbefore, Nat.not_le.mp hbound, ?_⟩
  rw [exec_send_of_sendPhase (State.sendPhase_iff.mpr ⟨hc, hw⟩),
    sendLoop_waiting ((State.gate_waiting_iff s).mpr hg), State.afterNow_eq]
  rfl

/-- The telegram to an `Idle` slave carries no request (R176). -/
theorem State.telegramTo_idle {s : State} {k : Nat} (h : (s.slave k).pending = false) :
    frameWordAt (s.telegramTo k) 3 = 0#16 ∧ frameWordAt (s.telegramTo k) 5 = 0#16 ∧
    frameWordAt (s.telegramTo k) 7 = 0#16 ∧ frameWordAt (s.telegramTo k) 9 = 0#16 := by
  unfold State.telegramTo
  simp only [h, Bool.false_eq_true, if_false]
  exact ⟨be16_hi8_lo8 _, be16_hi8_lo8 _, be16_hi8_lo8 _, be16_hi8_lo8 _⟩

/-- Every telegram carries the control word and the setpoint (R176). -/
theorem State.telegramTo_pzd (s : State) (k : Nat) :
    frameWordAt (s.telegramTo k) 11 = (s.slave k).ctl ∧ frameWordAt (s.telegramTo k) 13 = (s.slave k).setpoint :=
  ⟨be16_hi8_lo8 _, be16_hi8_lo8 _⟩

/-- Settles O35: the window tells a `SEND` that waits from one that sends, and the one telegram is that of the slave
the wrap selects. -/
theorem sendSelectsAndComposes : Obligations.SendSelectsAndComposes := by
  intro s t hi h
  obtain ⟨waits, sends⟩ := sendLoop_txWrites hi.txbufWf (execSend_next h).2
  refine ⟨exec_send_slaves h, fun hw => ?_, fun hw => ?_⟩
  · obtain ⟨hg, ht⟩ := exec_send_waits h hw
    exact ⟨by rw [ht]; rfl, waits ((State.gate_waiting_iff s).mp hg)⟩
  · obtain ⟨_, hg, _, hcursor, _⟩ := exec_send_opens h hw
    rw [hcursor]
    exact ⟨fun hc => if_pos hc, fun hc => if_neg hc, _, sends hg, rfl, State.telegramTo_pending,
      State.telegramTo_idle, State.telegramTo_pzd s _⟩

/-! ## RECEIVE -/

theorem State.length_rxBytes_le (s : State) : s.rxBytes.length ≤ frameLen := List.length_take_le _ _

/-- The bytes that arrive go to the start of `RXBUF` (R39). -/
theorem State.read_receive_rxbuf {s : State} (hw : Memory.wf s.rxbuf = true) (o : Nat) :
    Memory.read s.receive.rxbuf o =
      if o < s.rxBytes.length then s.rxBytes.getD o 0#8 else Memory.read s.rxbuf o := by
  have hfit : 0 + s.rxBytes.length ≤ frameLen := by simpa using s.length_rxBytes_le
  rw [State.receive_eq]
  simpa using Memory.read_writeAll hw hfit o

/-- A frame that is not from the cursor's slave is rejected (R179, R181). -/
theorem State.accepted_eq_none {s : State} (hw : Memory.wf s.rxbuf = true)
    (hf : ¬ FrameFrom s.cfg (s.addrAt s.cursor) s.rxBytes) : s.accepted = none := by
  classical
  rw [State.accepted_eq hw, if_neg hf]

/-- Settles O36: what `RECEIVE` writes does not depend on the frame, but for one record and the code. -/
theorem receiveAlwaysCompletes : Obligations.ReceiveAlwaysCompletes := by
  classical
  intro s hi hw
  have hexec := exec_receive_open hi hw
  refine ⟨_, s.receiveCode, hexec, ?_, s.length_rxBytes_le, s.receive_slaves_length, fun k hk => ?_,
    State.read_receive_rxbuf hi.rxbufWf⟩
  · rw [← ite_isEmpty_add_one, List.drop_one, State.receive_eq]
    rfl
  · rw [exec_receive_slave hi hexec k, if_neg fun h => hk h.2]

/-- Settles O39: without an accepted telegram the records stay and the code is the one of every rejection. -/
theorem rejectedFrameChangesNoRecord : Obligations.RejectedFrameChangesNoRecord := by
  intro s hi hw hf
  have hnone := State.accepted_eq_none hi.rxbufWf hf
  refine ⟨_, exec_receive_open hi hw, ?_, ?_⟩
  · rw [State.receive_eq, hnone]
    rfl
  · rw [State.respond_responses, State.receive_responses, State.receiveCode, hnone]

end Sys2Proof.Machine
end

section
/-! PROOFS. The family 44_facade.md: a step inside a `SETPARAM_*` is a `SEND`, a `RECEIVE` and the loop's test (O6); the
command completes in one scan if its slave answers (O44), which is so at the slave's turn and not before (O57); and
`SETPARAM_F` is `SETPARAM_D` (O46). -/

namespace Sys2Proof.Machine

/-! ## What a scan leaves and writes -/

@[simp] theorem State.scan_resetLine (s : State) : s.scan.resetLine = s.resetLine := by
  unfold State.scan
  rw [State.receive_eq, State.transmit_eq]
  rfl

/-- A scan moves the cursor past the slave it addressed (R176, R182). -/
theorem State.scan_cursor (s : State) : s.scan.cursor = s.wrapped + 1 := by
  unfold State.scan
  rw [State.receive_eq, ← State.scanStart_cursor]

theorem State.scan_txbuf (s : State) : s.scan.txbuf =
    encodeInto s.cfg.lge (busAddress (s.addrAt s.wrapped)) (s.slave s.wrapped).pkw (s.slave s.wrapped).pzd s.txbuf := by
  unfold State.scan
  rw [State.receive_eq, ← State.scanStart_txbuf]

/-- A frame of 16 bytes fills `RXBUF` (R39). -/
theorem State.read_scan_rxbuf {s : State} (hw : Memory.wf s.rxbuf = true)
    (hlen : s.afterNow.afterNow.rxBytes.length = 16) {o : Nat} (ho : o < 16) :
    Memory.read s.scan.rxbuf o = s.afterNow.afterNow.rxBytes.getD o 0#8 := by
  unfold State.scan
  rw [State.read_receive_rxbuf (by simpa using hw), State.scanStart_rxBytes, if_pos (hlen ▸ ho)]

section Scan

variable {s : State} (hw : Memory.wf s.rxbuf = true) (hlen : s.wrapped < s.slaves.length)
  (hf : FrameFrom s.cfg (s.addrAt s.wrapped) s.afterNow.afterNow.rxBytes)
include hw hlen hf

/-- A scan whose slave answers stores the frame in that slave's record only (R180). -/
theorem State.scan_slave_of_frameFrom (k : Nat) : s.scan.slave k =
    if k = s.wrapped then (s.slave k).afterAccepted s.afterNow.afterNow.rxBytes else s.slave k := by
  classical
  rw [State.scan_slave hw, Slave.accept_extractTelegram]
  simp only [hf, hlen, true_and, and_true]
  split
  · rename_i hk
    rw [hk]
  · rfl

theorem State.scan_idle_of_frameFrom : (s.scan.slave s.wrapped).pending = false := by
  rw [State.scan_slave_of_frameFrom hw hlen hf, if_pos rfl]
  rfl

end Scan

/-! ## Every way a step inside a SETPARAM answers -/

section ParamLoop

variable {s : State} {idx : BitVec 4}

theorem paramLoop_waiting (hg : s.gate = .waiting) :
    paramLoop idx s = .next (s.afterGate.toSeq (.paramGate idx)) := if_pos hg

theorem paramLoop_scans (hg : s.gateEnds) (hlt : s.wrapped < s.count) : paramLoop idx s =
    .next (if (s.scan.slave idx.toNat).pending then s.scan.toSeq (.paramGate idx)
      else (s.scan.toSeq .idle).respond s.scanCode 0#16) := by
  have hlt' : s.selected.cursor < s.count := hlt
  rw [paramLoop, if_neg ((State.gate_ends_iff s).mpr hg), if_pos hlt']
  split <;> rfl

/-- At its slave's turn an accepted frame ends the command with the code of its acknowledgment (R180, R204). -/
theorem paramLoop_answered (hg : s.gateEnds) (hlt : s.wrapped < s.count) (hlen : s.wrapped < s.slaves.length)
    (hw : Memory.wf s.rxbuf = true) (hk : s.wrapped = idx.toNat) (hp : (s.slave idx.toNat).pending = true)
    (hf : FrameFrom s.cfg (s.addrAt s.wrapped) s.afterNow.afterNow.rxBytes) : paramLoop idx s =
    .next ((s.scan.toSeq .idle).respond (ackCodeOf s.cfg s.afterNow.afterNow.rxBytes) 0#16) := by
  rw [← hk] at hp
  rw [paramLoop_scans hg hlt, ← hk, State.scan_idle_of_frameFrom hw hlen hf, State.scanCode_accepted hw hp hf]
  rfl

end ParamLoop

/-! ## A step inside a SETPARAM as a SEND and a RECEIVE -/

/-- `SEND` and `RECEIVE` one after another are a scan with both responses delivered (R200; log 1). -/
theorem exec_receive_after_send {s t : State} (hi : s.Inv) (h : exec .send s = .next t) (hw : t.windowOpen = true) :
    exec .receive t = .next (((s.scan.toSeq .idle).respond rcOk 0#16).respond s.scanCode 0#16) := by
  obtain ⟨hp, hloop⟩ := execSend_next h
  obtain ⟨hc, hclosed⟩ := State.sendPhase_iff.mp hp
  obtain ⟨_, hg, _⟩ := exec_send_opens h hw
  have ht : t = (s.selected.transmit.toSeq .idle).respond rcOk 0#16 :=
    Host.Outcome.next.inj (h.symm.trans (exec_send_ends hi hc hclosed hg))
  rw [exec_receive_open (sendLoop_inv hi hp hloop) hw, ht, State.receive_respond, State.receive_toSeq,
    State.receiveCode_respond, State.receiveCode_toSeq, State.scan, State.scanCode]

/-- Settles O6: the window tells a step that waits in the gate from one that scans. -/
theorem stepContinuesAWaitingSetparam : Obligations.StepContinuesAWaitingSetparam := by
  intro s t idx hi hl hq h
  rw [step_of_paramGate hl hq]
  refine ⟨fun hw => ?_, fun hw => ?_⟩
  · obtain ⟨hg, rfl⟩ := exec_send_waits h hw
    exact paramLoop_waiting hg
  · obtain ⟨_, hg, _, _, hlt⟩ := exec_send_opens h hw
    refine ⟨_, s.scanCode, exec_receive_after_send hi h hw, ?_, ?_⟩
    · simp [rcOk]
    · rw [paramLoop_scans hg hlt, ← s.scan_responses]
      generalize s.scan = v
      rfl

/-! ## A SETPARAM that completes in one scan -/

section Recorded

variable {s : State} {i : Instr} {idx : BitVec 4} {pke vhi vlo : Word}

/-- The record of a slave whose request has just been recorded (R133). -/
theorem State.slave_request {k : Nat} (hlen : k < s.slaves.length) :
    (s.updateSlave k (Slave.request pke vhi vlo)).slave k = (s.slave k).request pke vhi vlo := by
  rw [State.slave_updateSlave, if_pos ⟨rfl, hlen⟩]

/-- The telegram to that slave carries the request (R176, R200). -/
theorem State.telegramTo_request {k : Nat} (hlen : k < s.slaves.length) :
    (s.updateSlave k (Slave.request pke vhi vlo)).telegramTo k = telegram s.cfg.lge ((s.addrAt k).setWidth 8)
      ⟨pke, 0#16, vhi, vlo⟩ ⟨(s.slave k).ctl, (s.slave k).setpoint⟩ := by
  rw [State.telegramTo_eq, State.slave_request hlen]
  rfl

/-- At its slave's turn a `SETPARAM_*` with an accepted frame answers the frame's acknowledgment (R200, R204). -/
theorem exec_isSetparam_answered (hi : s.Inv) (hs : IsSetparam s.cfg i idx pke vhi vlo) (hlt : idx.toNat < s.count)
    (hclosed : s.windowOpen = false) (hk : s.wrapped = idx.toNat) (hg : s.gateEnds)
    (hf : FrameFrom s.cfg (s.addrAt idx.toNat) s.afterNow.afterNow.rxBytes) : exec i s =
    .next (((s.updateSlave idx.toNat (Slave.request pke vhi vlo)).scan.toSeq .idle).respond
      (ackCodeOf s.cfg s.afterNow.afterNow.rxBytes) 0#16) := by
  have hr : s.inRange idx = true := (s.inRange_iff idx).mpr hlt
  have hlen : idx.toNat < s.slaves.length := Nat.lt_of_lt_of_le hlt hi.count_le
  rw [exec_isSetparam hs, setparam_of_inRange hr (hi.sendPhase_of_lt_count hlt hclosed),
    State.updateInRange_of_inRange hr]
  set r := s.updateSlave idx.toNat (Slave.request pke vhi vlo)
  have hturn : r.wrapped = idx.toNat := hk
  have hlen' : r.wrapped < r.slaves.length := by rwa [hturn, State.updateSlave_length]
  have hpend : (r.slave idx.toNat).pending = true := by rw [State.slave_request hlen]; rfl
  exact paramLoop_answered (s := r) hg (hturn ▸ hlt) hlen' hi.rxbufWf hturn hpend (hturn ▸ hf)

end Recorded

/-- Settles O44: the one scan in closed form, from the state with the request recorded. -/
theorem setparamCompletesInOneScan : Obligations.SetparamCompletesInOneScan := by
  intro s i idx pke vhi vlo hi hs hlt hclosed hk hg f q tele hf
  have hlen : idx.toNat < s.slaves.length := Nat.lt_of_lt_of_le hlt hi.count_le
  have hexec := exec_isSetparam_answered hi hs hlt hclosed hk hg hf
  set r := s.updateSlave idx.toNat (Slave.request pke vhi vlo)
  have hturn : r.wrapped = idx.toNat := hk
  have htele : r.telegramTo idx.toNat = tele := State.telegramTo_request hlen
  refine ⟨_, hexec, ?_, fun k => ?_, fun o ho => ⟨?_, ?_⟩⟩
  · have hscan := State.scan_eq (s := r) hg hi.txbufWf
    rw [hturn, htele] at hscan
    rw [hscan]
    generalize r.scan.slaves = records
    dsimp only [State.toSeq, State.respond]
    rfl
  · have hlen' : r.wrapped < r.slaves.length := by rwa [hturn, State.updateSlave_length]
    rw [State.respond_slave, State.toSeq_slave, State.scan_slave_of_frameFrom (s := r) hi.rxbufWf hlen' (hturn ▸ hf),
      hturn]
    split
    · rename_i hki
      rw [hki, State.slave_request hlen]
      rfl
    · rename_i hki
      rw [State.slave_updateSlave, if_neg fun h => hki h.1]
  · rw [State.respond_txbuf, State.toSeq_txbuf, State.scan_txbuf, hturn, ← htele, State.telegramTo_eq]
    exact read_encodeInto hi.txbufWf ho
  · rw [State.respond_rxbuf, State.toSeq_rxbuf]
    exact State.read_scan_rxbuf (s := r) hi.rxbufWf hf.1.1 ho

/-- Settles O46: both record the same request words. -/
theorem setparamFIsSetparamD : Obligations.SetparamFIsSetparamD := fun _ _ _ _ => rfl

/-! ## How many scans before a slave's turn -/

/-- The scans from `s`, with the window closed, before the one that addresses slave `k` (R204). -/
def State.scansBefore (s : State) (k : Nat) : Nat := (k + s.count - s.cursor % s.count) % s.count

theorem State.CursorOk.wrapped_lt {s : State} (h : s.CursorOk) : s.wrapped < s.count := by
  rw [State.wrapped_eq_mod h]
  exact Nat.mod_lt _ h.countPos

theorem State.scansBefore_eq {s : State} (h : s.CursorOk) {k : Nat} (hk : k < s.count) : s.scansBefore k =
    if s.wrapped ≤ k then k - s.wrapped else k + s.count - s.wrapped := by
  have hlt := h.wrapped_lt
  rw [State.scansBefore, ← State.wrapped_eq_mod h]
  split
  · rw [Nat.sub_add_comm ‹_›, Nat.add_mod_right, Nat.mod_eq_of_lt (by omega)]
  · exact Nat.mod_eq_of_lt (by omega)

/-- Each scan of another slave brings the turn of slave `k` nearer by one. -/
theorem State.scansBefore_succ {s t : State} (hs : s.CursorOk) (ht : t.CursorOk) (hcount : t.count = s.count)
    (hcursor : t.cursor = s.wrapped + 1) {k : Nat} (hk : k < s.count) (hne : s.wrapped ≠ k) :
    s.scansBefore k = t.scansBefore k + 1 := by
  have hlt := hs.wrapped_lt
  have hwrap : t.wrapped = if s.wrapped + 1 = s.count then 0 else s.wrapped + 1 := by
    rw [State.wrapped, hcursor, hcount]
  rw [State.scansBefore_eq hs hk, State.scansBefore_eq ht (hcount ▸ hk), hcount, hwrap]
  split_ifs <;> omega

theorem State.scansBefore_eq_zero_iff {s : State} (h : s.CursorOk) {k : Nat} (hk : k < s.count) :
    s.scansBefore k = 0 ↔ s.wrapped = k := by
  have hlt := h.wrapped_lt
  rw [State.scansBefore_eq h hk]
  split <;> omega

/-! ## One scan inside a SETPARAM whose slaves answer -/

/-- The block is inside a `SETPARAM_*` for slave `idx`, with no reset asked for. -/
structure InSetparam (idx : BitVec 4) (s : State) : Prop where
  inv       : s.Inv
  resetLine : s.resetLine = false
  seq       : s.seq = .paramGate idx

/-- The gate ends at its first sample and the slave whose turn it is answers with an accepted frame. -/
def State.scanAnswered (s : State) : Prop :=
  s.gateEnds ∧ FrameFrom s.cfg (s.addrAt s.wrapped) s.afterNow.afterNow.rxBytes

namespace InSetparam

variable {idx : BitVec 4} {s : State} (h : InSetparam idx s)
include h

theorem configured : s.configured = true := (State.sendPhase_iff.mp (h.inv.paramPhase idx h.seq).1).1

theorem cursorOk : s.CursorOk := h.inv.cursorOk h.configured

theorem idx_lt : idx.toNat < s.count := (s.inRange_iff idx).mp (h.inv.paramPhase idx h.seq).2.1

theorem pending : (s.slave idx.toNat).pending = true := (h.inv.paramPhase idx h.seq).2.2

theorem wrapped_lt : s.wrapped < s.count := h.cursorOk.wrapped_lt

theorem wrapped_lt_length : s.wrapped < s.slaves.length := Nat.lt_of_lt_of_le h.wrapped_lt h.inv.count_le

/-- At the slave's turn the command ends (R204 (3)). -/
theorem step_of_turn (ha : s.scanAnswered) (hk : s.wrapped = idx.toNat) : step s =
    .next ((s.scan.toSeq .idle).respond (ackCodeOf s.cfg s.afterNow.afterNow.rxBytes) 0#16) := by
  obtain ⟨hg, hf⟩ := ha
  rw [step_of_paramGate h.resetLine h.seq]
  exact paramLoop_answered hg h.wrapped_lt h.wrapped_lt_length h.inv.rxbufWf hk h.pending hf

/-- At another slave's turn the frame is stored there, and the command goes on (R204 (5)). -/
theorem step_of_other_turn (ha : s.scanAnswered) (hk : s.wrapped ≠ idx.toNat) :
    step s = .next (s.scan.toSeq (.paramGate idx)) := by
  obtain ⟨hg, hf⟩ := ha
  rw [step_of_paramGate h.resetLine h.seq, paramLoop_scans hg h.wrapped_lt,
    State.scan_slave_of_frameFrom h.inv.rxbufWf h.wrapped_lt_length hf, if_neg hk.symm, h.pending]
  rfl

theorem scan (ha : s.scanAnswered) (hk : s.wrapped ≠ idx.toNat) : InSetparam idx (s.scan.toSeq (.paramGate idx)) where
  inv := stepKeepsTheInvariant _ _ h.inv (h.step_of_other_turn ha hk)
  resetLine := by rw [State.toSeq_resetLine, State.scan_resetLine, h.resetLine]
  seq := rfl

theorem scansBefore_eq_zero_iff : s.scansBefore idx.toNat = 0 ↔ s.wrapped = idx.toNat :=
  State.scansBefore_eq_zero_iff h.cursorOk h.idx_lt

theorem scansBefore_scan (ha : s.scanAnswered) (hk : s.wrapped ≠ idx.toNat) :
    s.scansBefore idx.toNat = (s.scan.toSeq (.paramGate idx)).scansBefore idx.toNat + 1 := by
  refine State.scansBefore_succ h.cursorOk (h.scan ha hk).cursorOk ?_ ?_ h.idx_lt hk
  · rw [State.toSeq_count, State.scan_count]
  · rw [State.toSeq_cursor, State.scan_cursor]

end InSetparam

/-! ## The scans up to the slave's turn -/

theorem run_succ_of_step {s t : State} (h : step s = .next t) (m : Nat) :
    Host.Core.run Sys2Proof.core (m + 1) s = Host.Core.run Sys2Proof.core m t := by
  have hstep : Sys2Proof.core.step s = .next t := h
  simp only [Host.Core.run, hstep]

/-- Each of the first `n + 1` scans of the run from `s` is answered. -/
def ScansAnswered (n : Nat) (s : State) : Prop :=
  ∀ (m : Nat) (u : State), m ≤ n → Host.Core.run Sys2Proof.core m s = .next u → u.scanAnswered

theorem ScansAnswered.first {n : Nat} {s : State} (h : ScansAnswered n s) : s.scanAnswered :=
  h 0 s (Nat.zero_le n) rfl

theorem ScansAnswered.rest {n : Nat} {s t : State} (h : ScansAnswered (n + 1) s) (ht : step s = .next t) :
    ScansAnswered n t :=
  fun m u hm hu => h (m + 1) u (Nat.succ_le_succ hm) ((run_succ_of_step ht m).trans hu)

/-- The command for slave `idx` that the block is inside in `s` goes on for `n` steps and ends at the next, which
answers the acknowledgment of the slave's frame (R204). -/
structure EndsAfter (idx : BitVec 4) (n : Nat) (s : State) : Prop where
  goesOn : ∀ m ≤ n, ∃ u : State, Host.Core.run Sys2Proof.core m s = .next u ∧
    u.seq = .paramGate idx ∧ u.responses = s.responses
  ends : ∃ u t : State, Host.Core.run Sys2Proof.core n s = .next u ∧ u.wrapped = idx.toNat ∧
    Host.Core.run Sys2Proof.core (n + 1) s = .next t ∧ t.seq = .idle ∧
    (t.slave idx.toNat).pending = false ∧
    t.responses = s.responses ++ [⟨ackCodeOf s.cfg u.afterNow.afterNow.rxBytes, 0#16⟩]

/-- The scan at the slave's turn is the last one. -/
theorem InSetparam.endsAfter_zero {idx : BitVec 4} {s : State} (h : InSetparam idx s) (ha : s.scanAnswered)
    (hk : s.wrapped = idx.toNat) : EndsAfter idx 0 s where
  goesOn m hm := by
    obtain rfl : m = 0 := Nat.le_zero.mp hm
    exact ⟨s, rfl, h.seq, rfl⟩
  ends := by
    refine ⟨s, _, rfl, hk, run_succ_of_step (h.step_of_turn ha hk) 0, rfl, ?_, ?_⟩
    · rw [State.respond_slave, State.toSeq_slave, ← hk]
      exact State.scan_idle_of_frameFrom h.inv.rxbufWf h.wrapped_lt_length ha.2
    · rw [State.respond_responses, State.toSeq_responses, State.scan_responses]

/-- A step that delivers nothing puts the end off by one. -/
theorem EndsAfter.succ {idx : BitVec 4} {n : Nat} {s t : State} (h : EndsAfter idx n t) (hq : s.seq = .paramGate idx)
    (hstep : step s = .next t) (hr : t.responses = s.responses) (hc : t.cfg = s.cfg) : EndsAfter idx (n + 1) s where
  goesOn m hm := by
    cases m with
    | zero => exact ⟨s, rfl, hq, rfl⟩
    | succ m =>
      rw [run_succ_of_step hstep, ← hr]
      exact h.goesOn m (Nat.le_of_succ_le_succ hm)
  ends := by
    rw [run_succ_of_step hstep, run_succ_of_step hstep, ← hr, ← hc]
    exact h.ends

/-- Every scan before the slave's turn is answered by another slave and puts the end off by one. -/
theorem InSetparam.endsAfter {idx : BitVec 4} {n : Nat} {s : State} (h : InSetparam idx s)
    (hn : s.scansBefore idx.toNat = n) (ha : ScansAnswered n s) : EndsAfter idx n s := by
  induction n generalizing s with
  | zero => exact h.endsAfter_zero ha.first (h.scansBefore_eq_zero_iff.mp hn)
  | succ n ih =>
    have hk : s.wrapped ≠ idx.toNat := fun hk => by
      rw [h.scansBefore_eq_zero_iff.mpr hk] at hn
      cases hn
    have hstep := h.step_of_other_turn ha.first hk
    have hn' := Nat.succ.inj ((h.scansBefore_scan ha.first hk).symm.trans hn)
    refine (ih (h.scan ha.first hk) hn' (ha.rest hstep)).succ h.seq hstep ?_ ((KeepsConfiguration.scan s).toSeq _).cfg
    rw [State.toSeq_responses, State.scan_responses]

/-- Settles O57, by induction on the number of scans before the slave's turn. -/
theorem setparamEndsAtItsTurn : Obligations.SetparamEndsAtItsTurn := by
  intro s idx hi hl hq n ha
  obtain ⟨goesOn, ends⟩ := InSetparam.endsAfter ⟨hi, hl, hq⟩ (n := n) rfl ha
  exact ⟨goesOn, ends⟩

end Sys2Proof.Machine
end

section
/-! PROOFS. The family 60_exceptions.md: the codes of an accepted frame (O37); exactly when the bus commands are refused
for the phase (O40); and no step faults, nor is one refused but for a word at the port (O53). -/

namespace Sys2Proof.Machine

/-! ## The acknowledgment errors of RECEIVE -/

/-- Settles O37: the record is that of an acceptance, and the code is what `RESOLVE` answers for the ack code. -/
theorem acknowledgmentOutcomesOfReceive : Obligations.AcknowledgmentOutcomesOfReceive := by
  classical
  intro s hi hw hf
  have hexec := exec_receive_open hi hw
  refine ⟨_, s.receiveCode, hexec, ?_, ?_, fun hp => ?_⟩
  · rw [State.respond_responses, State.receive_responses]
  · rw [exec_receive_slave hi hexec, if_pos ⟨hf, rfl⟩]
    rfl
  · rw [State.receiveCode_of_frameFrom hi.rxbufWf hf, if_pos hp]
    refine ⟨fun h => ?_, fun h => ?_, fun h he => ?_, fun h he => ?_⟩
    · exact resolveCode_noResp _ _ h
    · exact resolveCode_noRights _ _ hi.params h
    · exact (resolveCode_cantExecute _ _ hi.params h).trans (if_pos he)
    · exact (resolveCode_cantExecute _ _ hi.params h).trans (if_neg he)

/-! ## The refusals for the phase -/

theorem State.sendPhase_eq_false_iff {s : State} :
    s.sendPhase = false ↔ s.configured = false ∨ s.windowOpen = true := by
  rw [State.sendPhase, Bool.and_eq_false_iff, Bool.not_eq_false']

theorem State.receivePhase_eq_false_iff {s : State} :
    s.receivePhase = false ↔ s.configured = false ∨ s.windowOpen = false := Bool.and_eq_false_iff

theorem exec_send_refused_iff {s : State} : exec .send s = .refused .phase ↔ s.sendPhase = false := by
  cases hp : s.sendPhase with
  | true => simp [exec_send_of_sendPhase hp, sendLoop_ne_refused]
  | false => simp [exec, execSend, hp]

theorem exec_receive_refused_iff {s : State} : exec .receive s = .refused .phase ↔ s.receivePhase = false := by
  cases hp : s.receivePhase with
  | true =>
    by_cases hlt : s.cursor < s.count
    · simp [exec, execReceive, done, hp, hlt]
    · simp [exec, execReceive, hp, hlt]
  | false => simp [exec, execReceive, hp]

/-- A `SETPARAM_*` out of range is no phase violation (R203, R205). -/
theorem setparam_refused_iff {s : State} {idx : BitVec 4} {request : Slave → Slave} :
    setparam idx request s = .refused .phase ↔ s.inRange idx = true ∧ s.sendPhase = false := by
  cases hr : s.inRange idx with
  | true =>
    cases hp : s.sendPhase with
    | true => simp [setparam_of_inRange hr hp, paramLoop_ne_refused]
    | false => simp [setparam, hr, hp]
  | false => simp [setparam_of_count_le ((s.inRange_eq_false_iff idx).mp hr)]

/-- With a configured slave there is one wrong phase for a `SETPARAM_*`: the open window. -/
theorem State.Inv.sendPhase_eq_false_iff_windowOpen {s : State} (hi : s.Inv) {k : Nat} (hk : k < s.count) :
    s.sendPhase = false ↔ s.windowOpen = true := by
  cases hw : s.windowOpen with
  | true => simp [State.sendPhase_eq_false_iff, hw]
  | false => simp [hi.sendPhase_of_lt_count hk hw]

/-- Settles O40: each command is refused exactly where its phase test fails. -/
theorem busCommandsAreRefusedOutOfPhase : Obligations.BusCommandsAreRefusedOutOfPhase := by
  intro s
  refine ⟨exec_send_refused_iff.trans State.sendPhase_eq_false_iff,
    exec_receive_refused_iff.trans State.receivePhase_eq_false_iff, fun i idx pke vhi vlo hi hs => ?_⟩
  rw [exec_isSetparam hs, setparam_refused_iff, s.inRange_iff idx]
  exact and_congr_right hi.sendPhase_eq_false_iff_windowOpen

/-! ## No fault -/

/-- Once the cursor's slave is configured a step inside a `SEND` answers a next state (R226). -/
theorem sendLoop_completes {s : State} (hlt : s.wrapped < s.count) : ∃ t, sendLoop s = .next t := by
  have hlt' : s.selected.cursor < s.count := hlt
  by_cases hg : s.gate = .waiting
  · exact ⟨_, if_pos hg⟩
  · exact ⟨_, by rw [sendLoop, if_neg hg, if_pos hlt', done]⟩

/-- So does a step inside a `SETPARAM_*`. -/
theorem paramLoop_completes {s : State} (hlt : s.wrapped < s.count) (idx : BitVec 4) :
    ∃ t, paramLoop idx s = .next t := by
  by_cases hg : s.gate = .waiting
  · exact ⟨_, paramLoop_waiting hg⟩
  · exact ⟨_, paramLoop_scans ((State.gate_ends_iff s).mp hg) hlt⟩

theorem State.Inv.wrapped_lt_of_sendPhase {s : State} (hi : s.Inv) (hp : s.sendPhase = true) : s.wrapped < s.count :=
  hi.wrapped_lt (State.sendPhase_iff.mp hp).1

section NoFault

variable {s : State} (hi : s.Inv) (f : Fault)
include hi

theorem execSend_ne_fault : exec .send s ≠ .fault f := by
  cases hp : s.sendPhase with
  | true =>
    obtain ⟨t, ht⟩ := sendLoop_completes (hi.wrapped_lt_of_sendPhase hp)
    rw [exec_send_of_sendPhase hp, ht]
    nofun
  | false =>
    rw [exec_send_refused_iff.mpr hp]
    nofun

theorem execReceive_ne_fault : exec .receive s ≠ .fault f := by
  cases hp : s.receivePhase with
  | true =>
    rw [exec_receive_open hi (State.receivePhase_iff.mp hp).2]
    nofun
  | false =>
    rw [exec_receive_refused_iff.mpr hp]
    nofun

/-- The request it records moves neither the cursor nor the count. -/
theorem setparam_ne_fault (idx : BitVec 4) (request : Slave → Slave) : setparam idx request s ≠ .fault f := by
  cases hr : s.inRange idx with
  | true =>
    cases hp : s.sendPhase with
    | true =>
      obtain ⟨t, ht⟩ := paramLoop_completes (s := s.updateSlave idx.toNat request) (hi.wrapped_lt_of_sendPhase hp) idx
      rw [setparam_of_inRange hr hp, State.updateInRange_of_inRange hr, ht]
      nofun
    | false =>
      rw [setparam_refused_iff.mpr ⟨hr, hp⟩]
      nofun
  | false =>
    rw [setparam_of_count_le ((s.inRange_eq_false_iff idx).mp hr)]
    nofun

end NoFault

/-- Whatever its operands are, `CONFIGURE` is refused, reports an error or succeeds (R221). -/
theorem execConfigure_ne_fault (n : BitVec 4) (margin : Word) (baud : DWord) (s : State) (f : Fault) :
    exec (.configure n margin baud) s ≠ .fault f := by
  show execConfigure n margin baud s ≠ _
  unfold execConfigure done
  repeat' split
  all_goals nofun

/-- Only the bus commands look at the cursor, and under the invariant it names a configured slave (R42, R226). -/
theorem exec_ne_fault {s : State} (hi : s.Inv) (i : Instr) (f : Fault) : exec i s ≠ .fault f := by
  cases i with
  | configure n margin baud => exact execConfigure_ne_fault n margin baud s f
  | send => exact execSend_ne_fault hi f
  | receive => exact execReceive_ne_fault hi f
  | setparamW idx | setparamD idx | setparamF idx => exact setparam_ne_fault hi f idx _
  | _ => nofun

/-- Settles O53: inside a command the phase that the invariant implies lets it go on; between commands the outcome is
that of the operation at the port. -/
theorem stepNeverFaults : Obligations.StepNeverFaults := by
  intro s hi
  cases hl : s.resetLine with
  | true => exact .inl ⟨_, step_of_resetLine hl⟩
  | false =>
    cases hq : s.seq with
    | sendGate =>
      rw [step_of_sendGate hl hq]
      exact .inl (sendLoop_completes (hi.wrapped_lt_of_sendPhase (hi.sendPhase hq)))
    | paramGate idx =>
      rw [step_of_paramGate hl hq]
      exact .inl (paramLoop_completes (hi.wrapped_lt_of_sendPhase (hi.paramPhase idx hq).1) idx)
    | idle =>
      cases hport : s.port with
      | nil => exact .inl ⟨s, step_of_fetch_nothing hl hq (fetch_nothing hport)⟩
      | cons e rest =>
        cases hd : decode e.word with
        | error r => exact .inr ⟨_, step_of_fetch_bad hl hq (fetch_bad hport hd), rfl, rfl, nofun⟩
        | ok i =>
          rw [step_of_fetch_run hl hq (fetch_run hport hd)]
          cases ho : exec i (s.accept e rest) with
          | next t => exact .inl ⟨t, rfl⟩
          | fault f => exact absurd ho (exec_ne_fault (hi.accept e rest) i f)
          | refused r => exact .inr ⟨r, rfl, rfl, rfl, nofun⟩

end Sys2Proof.Machine
end

section
/-! PROOFS. The family 70_reset_and_hazards.md: with host commands only, the only request is that of the `SETPARAM_*`
being executed (O50). -/

namespace Sys2Proof.Machine

/-! ## No step issues a command -/

@[simp] theorem State.scanStart_port (s : State) : s.selected.transmit.port = s.port := by
  rw [State.transmit_eq]
  rfl

@[simp] theorem State.receive_port (s : State) : s.receive.port = s.port := by
  rw [State.receive_eq]

@[simp] theorem State.scan_port (s : State) : s.scan.port = s.port :=
  s.selected.transmit.receive_port.trans s.scanStart_port

theorem sendLoop_port {s t : State} (h : sendLoop s = .next t) : t.port = s.port := by
  rcases sendLoop_next h with ⟨_, rfl⟩ | ⟨_, _, rfl⟩
  · rfl
  · rw [State.respond_port, State.toSeq_port, State.scanStart_port]

theorem paramLoop_port {idx : BitVec 4} {s t : State} (h : paramLoop idx s = .next t) : t.port = s.port := by
  rcases paramLoop_next h with ⟨_, rfl⟩ | ⟨_, _, _, rfl⟩ | ⟨_, _, _, rfl⟩
  · rfl
  · rw [State.toSeq_port, State.scan_port]
  · rw [State.respond_port, State.toSeq_port, State.scan_port]

theorem setparam_port {idx : BitVec 4} {request : Slave → Slave} {s t : State}
    (h : setparam idx request s = .next t) : t.port = s.port := by
  rcases setparam_next h with ⟨_, rfl⟩ | ⟨_, _, hloop⟩
  · rfl
  · rw [paramLoop_port hloop, State.updateSlave_port]

theorem exec_port {i : Instr} {s t : State} (h : exec i s = .next t) : t.port = s.port := by
  cases hb : i.isBus with
  | false => exact congrArg (·.port) (exec_other_frame hb h)
  | true =>
    rcases Instr.isBus_cases hb s.cfg with ⟨n, margin, baud, rfl⟩ | rfl | rfl | ⟨idx, pke, vhi, vlo, hs⟩
    · obtain ⟨_, _, ⟨e, rfl⟩ | ⟨_, _, _, rfl⟩⟩ := execConfigure_next h
      · rfl
      · rfl
    · exact sendLoop_port (execSend_next h).2
    · obtain ⟨_, _, rfl⟩ := execReceive_next h
      rw [State.respond_port, State.receive_port]
    · rw [exec_isSetparam hs] at h
      exact setparam_port h

/-- A step takes at most the oldest command from the port. -/
theorem mem_port_of_step {s t : State} (h : step s = .next t) {e : PortEntry} (he : e ∈ t.port) : e ∈ s.port := by
  rcases step_next h with
    ⟨_, rfl⟩ | ⟨_, _, h⟩ | ⟨idx, _, _, h⟩ | ⟨_, _, _, rfl⟩ | ⟨e', rest, i, _, _, hport, _, h⟩
  · exact he
  · rwa [sendLoop_port h] at he
  · rwa [paramLoop_port h] at he
  · exact he
  · have accepted : t.port = rest := exec_port h
    rw [accepted] at he
    rw [hport]
    exact List.mem_cons_of_mem e' he

/-! ## Host commands that record a request -/

theorem isCmd_encode_of_isCmd {w : PortWord} {i : Instr} (hw : w.isCmd = true) (hd : decode w = .ok i) :
    (encode i).isCmd = true := by
  cases w with
  | cmd w => exact isCmd_encode_of_decode_cmd hd
  | frame | pkw => cases hw

/-- Of the host commands only the `SETPARAM_*` are requests for a slave (R251). -/
theorem Instr.requests_eq_false_of_isCmd {i : Instr} (hc : (encode i).isCmd = true) (c : Config)
    (hs : ∀ idx pke vhi vlo, ¬ IsSetparam c i idx pke vhi vlo) (k : Nat) : i.requests k = false := by
  cases i with
  | setparamW idx p w => exact absurd (.word idx p w) (hs _ _ _ _)
  | setparamD idx p v => exact absurd (.dword idx p v) (hs _ _ _ _)
  | setparamF idx p v => exact absurd (.float idx p v) (hs _ _ _ _)
  | configure | send | receive | setSetpoint | setCtl | clrCtl | getActual | chkStatus | illegalOp0 | illegalOpC
  | illegalOpD | illegalOpE | illegalOpF => rfl
  | _ => cases hc

/-! ## The pending requests inside a SETPARAM -/

/-- Every pending request is the one that the command being executed waits for: what `State.HostOnly` says of the
records. -/
def State.OnlyWaitedFor (s : State) : Prop :=
  ∀ k, (s.slave k).pending = true → ∃ idx, s.seq = .paramGate idx ∧ idx.toNat = k

theorem State.onlyWaitedFor_of_none {s : State} (h : ∀ k, (s.slave k).pending = false) : s.OnlyWaitedFor :=
  fun k hp => by cases (h k).symm.trans hp

/-- A scan makes no slave `Pending`. -/
theorem paramLoop_pending {idx : BitVec 4} {s t : State} {k : Nat} (hw : Memory.wf s.rxbuf = true)
    (h : paramLoop idx s = .next t) (hp : (t.slave k).pending = true) : (s.slave k).pending = true := by
  rcases paramLoop_slave hw h k with e | ⟨_, _, e⟩
  · rwa [e] at hp
  · rw [e, Slave.accept_eq] at hp
    cases hp

/-- A `SETPARAM_*` goes on exactly as long as its own request is pending (R204). -/
theorem paramLoop_onlyWaitedFor {idx : BitVec 4} {s t : State} (hw : Memory.wf s.rxbuf = true)
    (hs : ∀ k, (s.slave k).pending = true → idx.toNat = k) (h : paramLoop idx s = .next t) : t.OnlyWaitedFor := by
  intro k hp
  obtain rfl := hs k (paramLoop_pending hw h hp)
  refine ⟨idx, ?_, rfl⟩
  rcases paramLoop_next h with ⟨_, rfl⟩ | ⟨_, _, _, rfl⟩ | ⟨_, _, hidle, rfl⟩
  · rfl
  · rfl
  · rw [State.respond_slave, State.toSeq_slave, hidle] at hp
    cases hp

theorem setparam_onlyWaitedFor {idx : BitVec 4} {request : Slave → Slave} {s t : State} (hi : s.Inv)
    (hn : ∀ k, (s.slave k).pending = false) (h : setparam idx request s = .next t) : t.OnlyWaitedFor := by
  rcases setparam_next h with ⟨_, rfl⟩ | ⟨_, _, hloop⟩
  · exact State.onlyWaitedFor_of_none hn
  · refine paramLoop_onlyWaitedFor (s := s.updateSlave idx.toNat request) hi.rxbufWf (fun k hp => ?_) hloop
    rw [State.slave_updateSlave] at hp
    split at hp
    · rename_i hk
      exact hk.1.symm
    · cases (hn k).symm.trans hp

/-! ## Every operation and every step -/

/-- Between commands a host command starts with no request pending (R251). -/
theorem exec_onlyWaitedFor {i : Instr} {s t : State} (hi : s.Inv) (hn : ∀ k, (s.slave k).pending = false)
    (hc : (encode i).isCmd = true) (h : exec i s = .next t) : t.OnlyWaitedFor := by
  by_cases hs : ∃ idx pke vhi vlo, IsSetparam s.cfg i idx pke vhi vlo
  · obtain ⟨idx, pke, vhi, vlo, hs⟩ := hs
    rw [exec_isSetparam hs] at h
    exact setparam_onlyWaitedFor hi hn h
  · have hr := Instr.requests_eq_false_of_isCmd hc s.cfg fun idx pke vhi vlo h' => hs ⟨idx, pke, vhi, vlo, h'⟩
    exact State.onlyWaitedFor_of_none fun k => ((exec_recordChange hi h k).of_not_requests (hr k)).2 (hn k)

namespace State.HostOnly

variable {s : State} (h : s.HostOnly)
include h

/-- Outside a `SETPARAM_*` no slave is `Pending`. -/
theorem pending_eq_false (hq : ∀ idx, s.seq ≠ .paramGate idx) (k : Nat) : (s.slave k).pending = false := by
  refine Bool.eq_false_iff.mpr fun hp => ?_
  obtain ⟨idx, hidx, _⟩ := h.onlyPending k hp
  exact hq idx hidx

theorem pending_unique {i j : Nat} (hpi : (s.slave i).pending = true) (hpj : (s.slave j).pending = true) : i = j := by
  obtain ⟨idx, hidx, rfl⟩ := h.onlyPending i hpi
  obtain ⟨jdx, hjdx, rfl⟩ := h.onlyPending j hpj
  cases hidx.symm.trans hjdx
  rfl

theorem step_onlyWaitedFor {t : State} (hi : s.Inv) (hstep : step s = .next t) : t.OnlyWaitedFor := by
  rcases step_next hstep with
    ⟨_, rfl⟩ | ⟨_, hq, hloop⟩ | ⟨idx, _, hq, hloop⟩ | ⟨_, _, _, rfl⟩ | ⟨e, rest, i, _, hq, hport, hd, hexec⟩
  · exact (State.resetWith_hostOnly s.cfg).onlyPending
  · refine State.onlyWaitedFor_of_none fun k => ?_
    rw [State.slave_congr (sendLoop_slaves hloop)]
    exact h.pending_eq_false (by simp [hq]) k
  · refine paramLoop_onlyWaitedFor hi.rxbufWf (fun k hp => ?_) hloop
    obtain ⟨jdx, hjdx, hk⟩ := h.onlyPending k hp
    cases hq.symm.trans hjdx
    exact hk
  · exact h.onlyPending
  · have hcmd : e.word.isCmd = true := h.commands e (by simp [hport])
    have hnone := h.pending_eq_false (by simp [hq])
    exact exec_onlyWaitedFor (hi.accept e rest) hnone (isCmd_encode_of_isCmd hcmd hd) hexec

theorem next {t : State} (hi : s.Inv) (hstep : step s = .next t) : t.HostOnly where
  commands e he := h.commands e (mem_port_of_step hstep he)
  onlyPending := h.step_onlyWaitedFor hi hstep

end State.HostOnly

/-- Settles O50: the state after a step is one of a run of host commands, and in such a state the two bounds hold. -/
theorem stepKeepsOneRequestAtATime : Obligations.StepKeepsOneRequestAtATime := by
  intro s t hi hh h
  have ht : t.HostOnly := hh.next hi h
  exact ⟨ht, fun i j => ht.pending_unique, fun hq => ht.pending_eq_false (by simp [hq])⟩

end Sys2Proof.Machine
end

section
/-! PROOFS. The family other: a request micro-operation issued by itself for a slave out of range is a no-op (O19;
the model's choice, log 13). -/

namespace Sys2Proof.Machine

theorem exec_reqW (s : State) (idx : BitVec 4) (param w : Word) :
    exec (.reqW idx param w) s = .next (s.updateInRange idx (Slave.reqW s.cfg param w)) := rfl

theorem exec_reqD (s : State) (idx : BitVec 4) (param : Word) (v : DWord) :
    exec (.reqD idx param v) s = .next (s.updateInRange idx (Slave.reqD s.cfg param v)) := rfl

/-- Out of range there is no record to write (log 13). -/
theorem State.updateInRange_of_count_le {s : State} {idx : BitVec 4} (h : s.count ≤ idx.toNat) (f : Slave → Slave) :
    s.updateInRange idx f = s :=
  State.updateInRange_of_not_inRange ((s.inRange_eq_false_iff idx).mpr h) f

/-- Settles O19: each request is an update in range, and `REQ_F` is `REQ_D`. -/
theorem requestsOutOfRangeChangeNothing : Obligations.RequestsOutOfRangeChangeNothing := by
  intro s idx param w v hout
  have dword : exec (.reqD idx param v) s = .next s := by
    rw [exec_reqD, State.updateInRange_of_count_le hout]
  refine ⟨?_, dword, (exec_reqF s idx param v).trans dword⟩
  rw [exec_reqW, State.updateInRange_of_count_le hout]

end Sys2Proof.Machine
end
